-- ==== Sys2Proof/Word.lean ====
section
/-! DEFINITION. The widths of NoCAN-SSC (spec/00_scope.md R7, R11): a wire byte and a Register File cell have 8 bits, an
address has 15 bits (7-bit page, 8-bit offset), an operation code and a function id have 4 bits. -/

namespace Sys2Proof

/-- One wire byte or Register File cell (`BYTE_W` = 8, 00_scope.md R7). -/
abbrev Byte := BitVec 8

/-- A Register File address (`ADDR_W` = 15, 00_scope.md R7). -/
abbrev Addr := BitVec 15

/-- The page-select part of an address (`PAGE_W` = 7, 00_scope.md R7). -/
abbrev Page := BitVec 7

/-- The operation code `cmd[7:4]`, the argument `cmd[3:0]` and a function id (30_encoding.md R93, R96). -/
abbrev Nibble := BitVec 4

end Sys2Proof
end

