-- ==== Sys2Proof/Syntax.lean ====
section
/-! DEFINITION. The commands of 30_encoding.md R97 as data: one constructor of `Instr` per row of opcode_table.json, and
the classes of the decoder R104. Bits the spec ignores (R98) stay in the term, so that no bit of an encoding is lost. -/

namespace Sys2Proof

/-- One command with its header's operands, one constructor per row of spec/opcode_table.json (12 rows; R105 splits TEST
in four, R97 the unsupported codes in two). -/
inductive Instr where
  /-- READ, `1AAAAAAA LLLLLLLL` (R92). -/
  | read (hi7 : Page) (lo8 : Byte)
  /-- SEND, `0000xxxx`; `arg4` is ignored (R98). -/
  | send (arg4 : Nibble)
  /-- ENABLE, `0001ffff` (R96). -/
  | enable (id : Nibble)
  /-- DISABLE, `0010ffff` (R96). -/
  | disable (id : Nibble)
  /-- RECV, `0011xxxx`; `arg4` is ignored (R98). -/
  | recv (arg4 : Nibble)
  /-- RESET, `01001111` (R99). -/
  | reset
  /-- TEST, row 0x40/0xF8: `arg4` 0 to 7. -/
  | test0to7 (arg4 : Nibble)
  /-- TEST, row 0x48/0xFC: `arg4` 8 to 11. -/
  | test8to11 (arg4 : Nibble)
  /-- TEST, row 0x4C/0xFE: `arg4` 12 and 13. -/
  | test12to13 (arg4 : Nibble)
  /-- TEST, row 0x4E/0xFF. -/
  | test14
  /-- Unsupported, row 0x50/0xF0 (R100). -/
  | unsup5 (arg4 : Nibble)
  /-- Unsupported, row 0x60/0xE0: operation codes 0b0110 and 0b0111 (R100). -/
  | unsup6to7 (opc : Nibble) (arg4 : Nibble)
  deriving DecidableEq, Repr

/-- What the parser R104 answers for a command byte. -/
inductive CommandClass where
  | read (hi7 : Page)
  | send
  | enable (id : Nibble)
  | disable (id : Nibble)
  | recv
  | reset
  | test
  | unsup
  deriving DecidableEq, Repr

/-- Why a list of bytes gives no whole command. There is no illegal encoding (R100): a header can only be short. -/
inductive DecodeError where
  /-- No command byte. -/
  | noCommandByte
  /-- A READ command byte without its address low byte (R91). -/
  | missingLowByte
  deriving DecidableEq, Repr

end Sys2Proof
end

