-- ==== Sys2Proof/WellFormed.lean ====
section
/-! DEFINITION. Which terms of `Instr` a row of spec/opcode_table.json admits (30_encoding.md R97, R105). -/

namespace Sys2Proof

/-- A term is well formed when its operands lie in its own row: the TEST rows split `arg4` (R105), the last row has the
operation codes 0b0110 and 0b0111 (R97). Every operand of the other rows is admitted (R96, R98). -/
def Instr.wf : Instr → Bool
  | .read _ _ => true
  | .send _ => true
  | .enable _ => true
  | .disable _ => true
  | .recv _ => true
  | .reset => true
  | .test0to7 arg4 => decide (arg4.toNat ≤ 7)
  | .test8to11 arg4 => decide (8 ≤ arg4.toNat) && decide (arg4.toNat ≤ 11)
  | .test12to13 arg4 => decide (12 ≤ arg4.toNat) && decide (arg4.toNat ≤ 13)
  | .test14 => true
  | .unsup5 _ => true
  | .unsup6to7 opc _ => decide (opc = 6#4) || decide (opc = 7#4)

end Sys2Proof
end

