-- ==== Sys2Proof/Decode.lean ====
section
/-! DEFINITION. Decoder and encoder of the command header (30_encoding.md R90 to R105): total on lists of bytes, the
first byte being the one of exchange 0. -/

namespace Sys2Proof

/-- `cmd[7:4]` (R93). -/
def opcOf (c : Byte) : Nibble := c.extractLsb' 4 4

/-- `cmd[3:0]` (R93). -/
def arg4Of (c : Byte) : Nibble := c.extractLsb' 0 4

/-- `cmd[6:0]` (R92). -/
def hi7Of (c : Byte) : Page := c.extractLsb' 0 7

/-- `cmd[7]`, the bit that tells format A from format N (R91, R94). -/
def isFormatA (c : Byte) : Bool := c.getLsbD 7

/-- The parser of R104, total on bytes. -/
def classify (cmd : Byte) : CommandClass :=
  if isFormatA cmd then .read (hi7Of cmd)
  else if opcOf cmd = 0b0000#4 then .send
  else if opcOf cmd = 0b0001#4 then .enable (arg4Of cmd)
  else if opcOf cmd = 0b0010#4 then .disable (arg4Of cmd)
  else if opcOf cmd = 0b0011#4 then .recv
  else if opcOf cmd = 0b0100#4 then (if arg4Of cmd = 0b1111#4 then .reset else .test)
  else .unsup

/-- The TEST and RESET rows of operation code 0b0100 (R97, R99, R105). -/
def decodeOpc4 (arg4 : Nibble) : Instr :=
  if arg4 = 15#4 then .reset
  else if arg4 = 14#4 then .test14
  else if arg4.toNat ≤ 7 then .test0to7 arg4
  else if arg4.toNat ≤ 11 then .test8to11 arg4
  else .test12to13 arg4

/-- A one-byte header: format N (R93, R97). -/
def decodeFormatN (c : Byte) : Instr :=
  if opcOf c = 0b0000#4 then .send (arg4Of c)
  else if opcOf c = 0b0001#4 then .enable (arg4Of c)
  else if opcOf c = 0b0010#4 then .disable (arg4Of c)
  else if opcOf c = 0b0011#4 then .recv (arg4Of c)
  else if opcOf c = 0b0100#4 then decodeOpc4 (arg4Of c)
  else if opcOf c = 0b0101#4 then .unsup5 (arg4Of c)
  else .unsup6to7 (opcOf c) (arg4Of c)

/-- The header of one command and the bytes after it. Bit 7 of the command byte alone tells a two-byte header (READ) from
a one-byte header (R91). -/
def decode : List Byte → Except DecodeError (Instr × List Byte)
  | [] => .error .noCommandByte
  | c :: later =>
    if isFormatA c then
      match later with
      | [] => .error .missingLowByte
      | lo :: later' => .ok (.read (hi7Of c) lo, later')
    else .ok (decodeFormatN c, later)

/-- The class R104 gives the command byte of a term's header. -/
def Instr.commandClass : Instr → CommandClass
  | .read hi7 _ => .read hi7
  | .send _ => .send
  | .enable id => .enable id
  | .disable id => .disable id
  | .recv _ => .recv
  | .reset => .reset
  | .test0to7 _ => .test
  | .test8to11 _ => .test
  | .test12to13 _ => .test
  | .test14 => .test
  | .unsup5 _ => .unsup
  | .unsup6to7 _ _ => .unsup

/-- A command byte `0ooo ffff` (R93). -/
def formatN (opc arg4 : Nibble) : Byte := opc ++ arg4

/-- The command byte of READ: `1AAAAAAA` (R92). -/
def formatA (hi7 : Page) : Byte := 1#1 ++ hi7

/-- The header bytes of a command in wire order (R92, R93, R95). -/
def encode : Instr → List Byte
  | .read hi7 lo8 => [formatA hi7, lo8]
  | .send arg4 => [formatN 0b0000#4 arg4]
  | .enable id => [formatN 0b0001#4 id]
  | .disable id => [formatN 0b0010#4 id]
  | .recv arg4 => [formatN 0b0011#4 arg4]
  | .reset => [formatN 0b0100#4 0b1111#4]
  | .test0to7 arg4 => [formatN 0b0100#4 arg4]
  | .test8to11 arg4 => [formatN 0b0100#4 arg4]
  | .test12to13 arg4 => [formatN 0b0100#4 arg4]
  | .test14 => [formatN 0b0100#4 0b1110#4]
  | .unsup5 arg4 => [formatN 0b0101#4 arg4]
  | .unsup6to7 opc arg4 => [formatN opc arg4]

/-- The (match, mask) pairs of spec/opcode_table.json in its order (R105). -/
def opcodeRows : List (Byte × Byte) :=
  [(0x80#8, 0x80#8), (0x00#8, 0xF0#8), (0x10#8, 0xF0#8), (0x20#8, 0xF0#8), (0x30#8, 0xF0#8), (0x4F#8, 0xFF#8),
   (0x40#8, 0xF8#8), (0x48#8, 0xFC#8), (0x4C#8, 0xFE#8), (0x4E#8, 0xFF#8), (0x50#8, 0xF0#8), (0x60#8, 0xE0#8)]

/-- The row of spec/opcode_table.json a constructor stands for. -/
def Instr.row : Instr → Byte × Byte
  | .read _ _ => (0x80#8, 0x80#8)
  | .send _ => (0x00#8, 0xF0#8)
  | .enable _ => (0x10#8, 0xF0#8)
  | .disable _ => (0x20#8, 0xF0#8)
  | .recv _ => (0x30#8, 0xF0#8)
  | .reset => (0x4F#8, 0xFF#8)
  | .test0to7 _ => (0x40#8, 0xF8#8)
  | .test8to11 _ => (0x48#8, 0xFC#8)
  | .test12to13 _ => (0x4C#8, 0xFE#8)
  | .test14 => (0x4E#8, 0xFF#8)
  | .unsup5 _ => (0x50#8, 0xF0#8)
  | .unsup6to7 _ _ => (0x60#8, 0xE0#8)

/-- A command byte selects a row when `c AND mask = match` (R105). -/
def selectsRow (c : Byte) (row : Byte × Byte) : Bool := decide (c &&& row.2 = row.1)

/-- The two header bytes that the number `w` holds, first byte in bits 7..0; bits from `nbits` on are 0. -/
def wordBytes (nbits w : Nat) : List Byte :=
  [BitVec.ofNat 8 (w % 2 ^ nbits), BitVec.ofNat 8 (w % 2 ^ nbits / 256)]

/-- The instruction the decoder reads from an instruction whose bits are `w`, numbered as spec/opcode_table.json numbers
them; none where fewer than one byte is given. -/
def decodeTableWord (nbits w : Nat) : Option Instr :=
  if nbits < 8 then none
  else
    match decode (wordBytes nbits w) with
    | .ok (i, _) => some i
    | .error _ => none

end Sys2Proof
end

