-- ==== Sys2Proof/Config.lean ====
section
/-! DEFINITION. The implementation parameters of 00_scope.md R7: the values this hardware takes, the parameters the
spec leaves OPEN, and the values that stay free (logs 3, 4, 7, 9). -/

namespace Sys2Proof

/-- `HANDSHAKE_BYTE`, placed outgoing by READ (R7, R101). -/
def Config.handshakeByte : Byte := 0xAA#8

/-- `UNSUP_BYTE`, placed for an unsupported command or operation (R7, R101). -/
def Config.unsupByte : Byte := 0x00#8

/-- `INVALID_READ_BYTE`, what a read through an invalid cursor yields (R7, R64). -/
def Config.invalidReadByte : Byte := 0x00#8

/-- `TX_RESET`, TXDATA after reset (R7, R40). -/
def Config.txReset : Byte := 0x00#8

/-- `N_SLOTS`, the slots of the Sample Array (R7, R33). -/
def Config.slots : Nat := 5

/-- `MON_CH`, the monitored channel (R7, R222). -/
def Config.monCh : Fin 3 := 1

/-- The parameters R7 leaves OPEN. `sampleBytes` is `B = SAMPLE_W / 8`: SAMPLE_W is a multiple of 8 (R7), so the width
is given by its number of bytes. -/
structure Config where
  ackByte     : Byte
  diagAddr    : Addr
  statusAddr  : Addr
  sampleBase  : Addr
  sampleBytes : Nat
  deriving DecidableEq, Repr

/-- `SAMPLE_W` in bits (R7). -/
def Config.sampleW (c : Config) : Nat := 8 * c.sampleBytes

/-- The duty R63 puts on the OPEN parameters: the `1 + 5*B` overlay addresses are distinct and below 0x8000, and a slot
has at least one byte. -/
def Config.wf (c : Config) : Bool :=
  decide (0 < c.sampleBytes) &&
  decide (c.sampleBase.toNat + Config.slots * c.sampleBytes ≤ 0x8000) &&
  !(decide (c.sampleBase.toNat ≤ c.statusAddr.toNat) &&
    decide (c.statusAddr.toNat < c.sampleBase.toNat + Config.slots * c.sampleBytes))

/-- The test configuration CFG_T of R7 ("the value used by the test vectors only"): no property of the hardware. -/
def Config.testValues : Config :=
  { ackByte := 0xA5#8, diagAddr := 0x7F00#15, statusAddr := 0x0000#15, sampleBase := 0x0010#15, sampleBytes := 2 }

/-- DESIGN CHOICE, log 3 (safe): the OPEN parameters of the one implementation are constants without a body. -/
opaque Config.openAckByte : Byte
@[inherit_doc Config.openAckByte] opaque Config.openDiagAddr : Addr
@[inherit_doc Config.openAckByte] opaque Config.openStatusAddr : Addr
@[inherit_doc Config.openAckByte] opaque Config.openSampleBase : Addr
@[inherit_doc Config.openAckByte] opaque Config.openSampleBytes : Nat

/-- The OPEN parameters as the implementation set them. -/
def Config.chosen : Config :=
  { ackByte := Config.openAckByte, diagAddr := Config.openDiagAddr, statusAddr := Config.openStatusAddr,
    sampleBase := Config.openSampleBase, sampleBytes := Config.openSampleBytes }

/-- The parameters of the implemented hardware: any values that meet R63's duty (a choice that breaks it stands for no
hardware and is replaced; log 3). -/
def Config.implemented : Config := if Config.chosen.wf then Config.chosen else Config.testValues

/-- Free value, log 7 (safe): what the `n`-th drawn answer of `register_read(a)` is for a cell nothing has written
(93_implementation_defined.md U5). -/
opaque Config.unwrittenCell : Nat → Addr → Byte

/-- Free value, log 9 (safe): the slave byte of a BYTE event in phase HALT (40_framing.md R133, U13). -/
opaque Config.haltSlaveByte : Nat → Byte

end Sys2Proof
end

