-- ==== Sys2Proof/Machine/State.lean ====
section
/-! DEFINITION. The state of NoCAN-SSC (10_state.md R20 to R42), the state of its environment (R39, 20_memory.md R80), the
events it consumes (00_scope.md R9), the calls it issues (R10), the outcomes that are no next state, and the reset state
(R40). Plain data throughout. -/

namespace Sys2Proof.Machine

open Sys2Proof

/-- PHASE, the sequencing state of the protocol engine (R21). -/
inductive Phase where
  | idle
  | cmd
  | addrLo
  | stream
  | halt
  deriving DecidableEq, Repr

/-- OP, the operation classified from the command byte (R22). There is no value for RESET. -/
inductive Op where
  | none
  | read
  | send
  | enable
  | disable
  | recv
  | test
  | unsup
  deriving DecidableEq, Repr

/-- CURSOR (R23). While `valid` is false no rule uses `addr`. -/
structure Cursor where
  valid : Bool
  addr  : Addr
  deriving DecidableEq, Repr

/-- SA[0..4], the Sample Array (R33). A slot is a number below `2^SAMPLE_W`: the width is an OPEN parameter, and the
hardware only compares slots as unsigned numbers and cuts them into bytes (log 4). -/
structure SampleArray where
  vbus      : Nat
  isense    : Nat
  vref      : Nat
  threshold : Nat
  snapshot  : Nat
  deriving DecidableEq, Repr

/-- The Register File's cells: (address, byte) pairs, addresses strictly rising, none equal to what an unlisted cell reads
as (`Env.blank`). -/
abbrev Memory := List Host.Cell

/-- The environment's state the rules mention (R39), laid out as the reference environment ENV0 (20_memory.md R80). `blank`
is what a cell that `mem` does not list holds: a byte (0x00 in ENV0), or none where the model knows no byte and
`register_read` answers a free value (log 7). `draws` is the model's own: how many free answers were drawn (log 7). -/
structure Env where
  mem         : Memory
  blank       : Option Byte
  sendGrant   : Option Addr
  recvGrant   : Option Addr
  sendCommits : Nat
  recvPops    : Nat
  funcEn      : BitVec 16
  pfCount     : Nat
  resetReq    : Bool
  draws       : Nat
  deriving DecidableEq, Repr

/-- A change the environment makes to itself between two services (log 8): a Register File cell takes a byte, or the next
answer of a queue call changes. -/
inductive EnvMove where
  | cell (a : Addr) (v : Byte)
  | sendGrant (g : Option Addr)
  | recvGrant (g : Option Addr)
  deriving DecidableEq, Repr

/-- The events of R9, the clock period below the event level (R27), and the environment's own moves (log 8). A result or a
threshold reaches the block through a port of SAMPLE_W bits (log 4). -/
inductive Event where
  | csFall
  | csRise
  | byte (m : Byte)
  | sck (mosi : Bool)
  | conv (v : Nat)
  | overrun
  | resetIn
  | cfgThreshold (t : Nat)
  | samplerStart
  | env (m : EnvMove)
  deriving DecidableEq, Repr

/-- Events presented at one instant, none yet serviced (60_exceptions.md R258). -/
abbrev Instant := List Event

/-- The collaborator calls of R10, with the answer where the call has one (`none` is the sentinel NONE). -/
inductive Call where
  | registerRead (a : Addr) (answer : Byte)
  | registerWrite (a : Addr) (v : Byte)
  | sendPrepare (answer : Option Addr)
  | sendExecute
  | recvFront (answer : Option Addr)
  | recvPopFront
  | functionEnable (id : Nibble)
  | functionDisable (id : Nibble)
  | powerFault
  | systemReset
  deriving DecidableEq, Repr

/-- One entry of the trace (R10): a call, or an exchange with its master byte and its slave byte. -/
inductive Obs where
  | call (c : Call)
  | exchange (m s : Byte)
  deriving DecidableEq, Repr

/-- The whole state. From `phase` to `samplerRun`: the registers of R20. `cfg`: the OPEN parameters, never written
(log 3). `env`: the environment (R39). `inputs`, `trace`, `misoBits`: the model's own (logs 1, 14). -/
structure State where
  phase       : Phase
  op          : Op
  cursor      : Cursor
  ahi         : Page
  rxdata      : Byte
  txdata      : Byte
  shift       : BitVec 8
  bitcnt      : BitVec 3
  selected    : Bool
  byteIe      : Bool
  sendPending : Bool
  recvPending : Bool
  fault       : Bool
  csPend      : Bool
  bytePend    : Bool
  awdPend     : Bool
  ovrPend     : Bool
  sa          : SampleArray
  seqIdx      : Fin 3
  samplerRun  : Bool
  cfg         : Config
  env         : Env
  inputs      : List Instant
  trace       : List Obs
  misoBits    : BitVec 8
  deriving DecidableEq, Repr

/-- Nothing in this hardware traps, unwinds or aborts (60_exceptions.md R250), every address exists (20_memory.md R66)
and no service can fail (R261): no step ends in a fault (log 18). -/
inductive Fault where
  deriving DecidableEq, Repr

/-- Why a step has no next state. The spec gives such event sequences no meaning (93_implementation_defined.md U8, U11,
40_framing.md R137); all but the first are raised by the presentation of an event (Machine/Service.lean), none by a
command, and all are safe: the model stops where the spec says nothing. -/
inductive Refusal where
  /-- Raised by an arm of `exec` whose instruction has no meaning yet; no arm does. Safe. -/
  | notModelled (mnemonic : String)
  /-- A BYTE event while the block is not selected (R121, U11). Safe. -/
  | byteWhileDeselected
  /-- A whole BYTE event inside a byte time that was begun clock period by clock period (log 14). Safe. -/
  | byteInsideByteTime
  /-- A byte time begins before the service of the byte before it (R296, U8: "`refuse`: host duty H2"). Safe. -/
  | byteNotYetServiced
  /-- CS_FALL while the line is low already (R132, U11). Safe. -/
  | fallWhileSelected
  /-- CS_RISE in phase IDLE (R137, U11). Safe. -/
  | riseWhileDeselected
  /-- A chip-select edge before the service of the edge before it (R132, R299: host duty H5). Safe. -/
  | edgeNotYetServiced
  deriving DecidableEq, Repr

/-- The environment at `State.reset` (log 6): no known cell, no slot granted, ENV0's counters at 0 (R80). -/
def Env.initial : Env :=
  { mem := [], blank := none, sendGrant := none, recvGrant := none, sendCommits := 0,
    recvPops := 0, funcEn := 0#16, pfCount := 0, resetReq := false, draws := 0 }

/-- The reference environment ENV0 of the test vectors (R80) where a vector gives neither cells nor grants: MEM is total,
"every other cell is 0x00". -/
def Env.env0 : Env := { Env.initial with blank := some 0x00#8 }

/-- Every register at its value of R40, for parameters `c` in environment `e`. CURSOR.addr, AHI, RXDATA and SA[0..2]
are "unspecified" there: DESIGN CHOICE 0 (log 5). THRESHOLD is all ones. -/
def State.resetWith (c : Config) (e : Env) : State :=
  { phase := .idle, op := .none, cursor := { valid := false, addr := 0#15 }, ahi := 0#7, rxdata := 0#8,
    txdata := Config.txReset, shift := 0#8, bitcnt := 0#3, selected := false, byteIe := false,
    sendPending := false, recvPending := false, fault := false,
    csPend := false, bytePend := false, awdPend := false, ovrPend := false,
    sa := { vbus := 0, isense := 0, vref := 0, threshold := 2 ^ c.sampleW - 1, snapshot := 0 },
    seqIdx := 0, samplerRun := false,
    cfg := c, env := e, inputs := [], trace := [], misoBits := 0#8 }

/-- The machine right after reset (R40, R291), with the parameters of the implementation. -/
def State.reset : State := State.resetWith Config.implemented Env.initial

end Sys2Proof.Machine
end

