-- ==== Sys2Proof/Machine/Flags.lean ====
section
/-! DEFINITION. The status register manager: every write of STATUS and its reading as a byte (10_state.md R30,
60_exceptions.md R262). There is no arithmetic flag (40_framing.md R138). -/

namespace Sys2Proof.Machine

open Sys2Proof

/-- STATUS as a byte: `{0b00000, FAULT, RECV_PENDING, SEND_PENDING}` (R30). -/
def statusByte (s : State) : Byte :=
  0b00000#5 ++ BitVec.ofBool s.fault ++ BitVec.ofBool s.recvPending ++ BitVec.ofBool s.sendPending

/-- Request of the SEND command service after a grant (R262). -/
def setSendPending (s : State) : State := { s with sendPending := true }

/-- Request of the `CS_RISE` service after `send_execute()` (R262). -/
def clearSendPending (s : State) : State := { s with sendPending := false }

/-- Request of the RECV command service after a grant (R262). -/
def setRecvPending (s : State) : State := { s with recvPending := true }

/-- Request of the `CS_RISE` service after `recv_pop_front()` (R262). -/
def clearRecvPending (s : State) : State := { s with recvPending := false }

/-- Request of the breach service and of the overrun service (R262). FAULT is sticky: only reset clears it. -/
def setFault (s : State) : State := { s with fault := true }

end Sys2Proof.Machine
end

