-- ==== Sys2Proof/Machine/Operands.lean ====
section
/-! DEFINITION. Operand forms and the arithmetic of the data path, all of it unsigned (40_framing.md R138). -/

namespace Sys2Proof.Machine

open Sys2Proof

/-- READ address assembly `{hi7, lo8}` (30_encoding.md R95, R138(a)). -/
def readAddress (hi7 : Page) (lo8 : Byte) : Addr := hi7 ++ lo8

/-- `(addr + 1) mod 2^15` (20_memory.md R69, R138(b)). -/
def nextAddr (a : Addr) : Addr := a + 1#15

/-- `trunc_8` of an address: bits 7:0 (00_scope.md R8, R138(c)). -/
def trunc8 (a : Addr) : Byte := a.extractLsb' 0 8

/-- The channel after a channel: 0, 1, 2, 0 (R138(d)). -/
def nextChannel (i : Fin 3) : Fin 3 := i + 1

/-- What a port of SAMPLE_W bits takes of a number (log 4). -/
def sampleOf (c : Config) (v : Nat) : Nat := v % 2 ^ c.sampleW

/-- The comparator: unsigned and strict, equal is not greater (45_analog_monitor.md R222, R138(e)). -/
def exceeds (v threshold : Nat) : Bool := decide (threshold < v)

/-- Byte `k` of a sample, least significant first: `SA[i][8k+7 : 8k]` (20_memory.md R63, R138(h)). -/
def sampleByte (v k : Nat) : Byte := BitVec.ofNat 8 (v / 2 ^ (8 * k))

/-- `SA[i]` (10_state.md R33). -/
def SampleArray.slot (sa : SampleArray) : Nat → Nat
  | 0 => sa.vbus
  | 1 => sa.isense
  | 2 => sa.vref
  | 3 => sa.threshold
  | _ => sa.snapshot

/-- `SA[i] <- v` for a channel slot, the only slots in the bulk transfer's view (45_analog_monitor.md R221). -/
def SampleArray.setChannel (sa : SampleArray) (i : Fin 3) (v : Nat) : SampleArray :=
  match i with
  | 0 => { sa with vbus := v }
  | 1 => { sa with isense := v }
  | 2 => { sa with vref := v }

/-- The bit of FUNC_EN that stands for a function id (20_memory.md R80). -/
def functionBit (id : Nibble) : BitVec 16 := 1#16 <<< id.toNat

end Sys2Proof.Machine
end

