-- ==== Sys2Proof/Machine/Ops.lean ====
section
/-! DEFINITION. The named operations all services share: the Register File's cells, the collaborator calls (00_scope.md
R10), the address decoder (20_memory.md R62, R63), access through the cursor (R64, R69), the outgoing position, the end
of the header (40_framing.md R125), the byte exchange (R120), reset (70_reset_and_hazards.md R290) and the one `raise` of
the spec, SystemReset (00_scope.md R11). The hardware has no trap: nothing is saved and nothing returned from
(60_exceptions.md R250, R259, R260). -/

namespace Sys2Proof.Machine

open Sys2Proof

/-! ### The Register File's cells -/

/-- The byte listed at an address. -/
def Memory.read? : Memory → Nat → Option Byte
  | [], _ => none
  | (k, v) :: rest, a => if k = a then some v else Memory.read? rest a

/-- The entry `(a, v)` in its place, instead of any entry for `a`, keeping the addresses strictly rising. -/
def Memory.put : Memory → Nat → Byte → Memory
  | [], a, v => [(a, v)]
  | (k, w) :: rest, a, v =>
    if a < k then (a, v) :: (k, w) :: rest
    else if a = k then (a, v) :: rest
    else (k, w) :: Memory.put rest a v

/-- No entry for `a`. -/
def Memory.erase : Memory → Nat → Memory
  | [], _ => []
  | (k, w) :: rest, a => if k = a then Memory.erase rest a else (k, w) :: Memory.erase rest a

/-- `MEM[a] <- v` where an unlisted cell holds `blank`: writing just that byte unlists the cell. -/
def Memory.write (m : Memory) (blank : Option Byte) (a : Nat) (v : Byte) : Memory :=
  if blank = some v then m.erase a else m.put a v

/-- Every listed address is at least `low`, below 0x8000, and above the one before it; no listed byte is `blank`. -/
def Memory.wfFrom (blank : Option Byte) : Nat → Memory → Bool
  | _, [] => true
  | low, (k, v) :: rest =>
    decide (low ≤ k) && decide (k < 0x8000) && decide (blank ≠ some v) && Memory.wfFrom blank (k + 1) rest

/-- The canonical form where an unlisted cell holds `blank`: addresses strictly rising, all in the 15-bit space
(20_memory.md R60), and no entry that says what an unlisted cell holds anyway. -/
def Memory.wf (m : Memory) (blank : Option Byte) : Bool := Memory.wfFrom blank 0 m

/-- The byte the Register File is known to hold at an address: the listed one, else what an unlisted cell holds (R80),
which is none where the model knows none (log 7). -/
def cell (s : State) (a : Addr) : Option Byte := (s.env.mem.read? a.toNat).or s.env.blank

/-! ### Trace and outgoing position -/

/-- One collaborator call, appended to the trace (R11). -/
def State.call (s : State) (c : Call) : State := { s with trace := s.trace ++ [.call c] }

/-- "Place X outgoing" (10_state.md R26). -/
def State.place (s : State) (v : Byte) : State := { s with txdata := v }

/-! ### Collaborator calls (00_scope.md R10) -/

/-- What the environment answers to `register_read(a)`: the byte the cell holds (20_memory.md R73, R80); where the model
knows none, a free value (log 7). -/
def registerReadAnswer (s : State) (a : Addr) : Byte :=
  (cell s a).getD (Config.unwrittenCell s.env.draws a)

/-- `send_prepare()` (20_memory.md R70). -/
def callSendPrepare (s : State) : State := s.call (.sendPrepare s.env.sendGrant)

/-- `send_execute()` (R70, R80). -/
def callSendExecute (s : State) : State :=
  { s.call .sendExecute with env := { s.env with sendCommits := s.env.sendCommits + 1 } }

/-- `recv_front()` (20_memory.md R71). -/
def callRecvFront (s : State) : State := s.call (.recvFront s.env.recvGrant)

/-- `recv_pop_front()` (R71, R80). -/
def callRecvPopFront (s : State) : State :=
  { s.call .recvPopFront with env := { s.env with recvPops := s.env.recvPops + 1 } }

/-- `function_enable(id)` (20_memory.md R78, R80). -/
def callFunctionEnable (id : Nibble) (s : State) : State :=
  { s.call (.functionEnable id) with env := { s.env with funcEn := s.env.funcEn ||| functionBit id } }

/-- `function_disable(id)` (R78, R80). -/
def callFunctionDisable (id : Nibble) (s : State) : State :=
  { s.call (.functionDisable id) with env := { s.env with funcEn := s.env.funcEn &&& ~~~functionBit id } }

/-- `power_fault()`, the Fault Reactor (45_analog_monitor.md R231, R80). -/
def callPowerFault (s : State) : State :=
  { s.call .powerFault with env := { s.env with pfCount := s.env.pfCount + 1 } }

/-- `raise SystemReset()`: `call system_reset(); PHASE <- HALT` (R11, 44_reset_test_unsupported.md R200). -/
def raiseSystemReset (s : State) : State :=
  { s.call .systemReset with env := { s.env with resetReq := true }, phase := .halt }

/-! ### Address decoder (20_memory.md R62, R63, R79) -/

/-- The byte an overlay address reads as, none outside the overlays (R63): STATUS at STATUS_ADDR, byte `k` of slot `i` at
`SAMPLE_BASE + B*i + k`. -/
def overlayByte? (s : State) (a : Addr) : Option Byte :=
  if a = s.cfg.statusAddr then some (statusByte s)
  else if s.cfg.sampleBase.toNat ≤ a.toNat ∧
      a.toNat - s.cfg.sampleBase.toNat < Config.slots * s.cfg.sampleBytes then
    some (sampleByte (s.sa.slot ((a.toNat - s.cfg.sampleBase.toNat) / s.cfg.sampleBytes))
      ((a.toNat - s.cfg.sampleBase.toNat) % s.cfg.sampleBytes))
  else none

/-- An address the decoder answers itself (R63). -/
def inOverlay (s : State) (a : Addr) : Bool := (overlayByte? s a).isSome

/-- The byte `MemRead(a, 1)` answers (R62). -/
def memReadByte (s : State) (a : Addr) : Byte := (overlayByte? s a).getD (registerReadAnswer s a)

/-- The calls `MemRead(a, 1)` issues: `register_read(a)` outside the overlays (R62). -/
def memReadCalls (s : State) (a : Addr) : List Obs :=
  if inOverlay s a then [] else [.call (.registerRead a (registerReadAnswer s a))]

/-- `MemRead(a, 1)`: the byte, and the state after the call (R62). -/
def memRead (a : Addr) (s : State) : Byte × State :=
  (memReadByte s a,
   { s with
     trace := s.trace ++ memReadCalls s a,
     env := { s.env with draws := s.env.draws + (memReadCalls s a).length } })

/-- `MemWrite(a, 1, v)`: `register_write(a, v)`, or nothing in an overlay (R62, R79). -/
def memWrite (a : Addr) (v : Byte) (s : State) : State :=
  { s with
    trace := s.trace ++ (if inOverlay s a then [] else [.call (.registerWrite a v)]),
    env := { s.env with mem := if inOverlay s a then s.env.mem else s.env.mem.write s.env.blank a.toNat v } }

/-! ### Access through the cursor (20_memory.md R64, R69) -/

/-- `CurRead()` (R64). -/
def curRead (s : State) : Byte × State :=
  if s.cursor.valid then memRead s.cursor.addr s else (Config.invalidReadByte, s)

/-- `CurWrite(v)` (R64). -/
def curWrite (v : Byte) (s : State) : State := if s.cursor.valid then memWrite s.cursor.addr v s else s

/-- `CurInc()`: an invalid cursor stays as it is (R69). -/
def curInc (s : State) : State :=
  { s with cursor := if s.cursor.valid then { valid := true, addr := nextAddr s.cursor.addr } else s.cursor }

/-- `CURSOR <- (valid = 1, addr = a)`. -/
def State.aim (s : State) (a : Addr) : State := { s with cursor := { valid := true, addr := a } }

/-- `CURSOR.valid <- 0`. -/
def State.dropCursor (s : State) : State := { s with cursor := { valid := false, addr := s.cursor.addr } }

/-! ### Header end, exchange, reset -/

/-- End of the header: OP is set, `BYTE_IE <- 1; PHASE <- STREAM` (40_framing.md R125). -/
def State.openStream (s : State) (op : Op) : State := { s with op := op, byteIe := true, phase := .stream }

/-- The wire half of EXCH: master byte `m` in, slave byte `sl` out (40_framing.md R120), with what the serialiser holds
after the eighth clock period (10_state.md R27) and BYTE_PEND set (R32). -/
def State.exchange (s : State) (m sl : Byte) : State :=
  { s with
    rxdata := m, shift := m, bitcnt := 0#3, misoBits := sl, bytePend := true,
    trace := s.trace ++ [.exchange m sl] }

/-- `RESET_IN` service: every register takes its value of R40, no call is issued; the environment, the parameters and the
inputs to come are not the block's (70_reset_and_hazards.md R290, log 15). -/
def resetInService (s : State) : State :=
  { State.resetWith s.cfg s.env with inputs := s.inputs, trace := s.trace }

/-- A move the environment makes on its own (log 8). -/
def envMove (m : EnvMove) (s : State) : State :=
  match m with
  | .cell a v => { s with env := { s.env with mem := s.env.mem.write s.env.blank a.toNat v } }
  | .sendGrant g => { s with env := { s.env with sendGrant := g } }
  | .recvGrant g => { s with env := { s.env with recvGrant := g } }

end Sys2Proof.Machine
end

