-- ==== Sys2Proof/Machine/Analog.lean ====
section
/-! DEFINITION. The analog monitor (45_analog_monitor.md): sampling, comparison, breach and overrun services, and the
boundary events of out-of-scope software. -/

namespace Sys2Proof.Machine

open Sys2Proof

/-- `CONV(v)` service (R220): the bulk transfer's write and the comparison. The threshold is read live (R222). -/
def convService (v : Nat) (s : State) : State :=
  if s.samplerRun then
    { s with
      sa := s.sa.setChannel s.seqIdx (sampleOf s.cfg v),
      seqIdx := nextChannel s.seqIdx,
      awdPend := s.awdPend || (decide (s.seqIdx = Config.monCh) && exceeds (sampleOf s.cfg v) s.sa.threshold) }
  else s

/-- `SA[4] <- SA[MON_CH]` (R224, R225). -/
def takeSnapshot (s : State) : State := { s with sa := { s.sa with snapshot := s.sa.slot Config.monCh.val } }

/-- Breach service (R224): the Fault Reactor first, then FAULT, the snapshot, the latch. -/
def breachService (s : State) : State := { takeSnapshot (setFault (callPowerFault s)) with awdPend := false }

/-- `OVERRUN` service (R227): no Reactor call, no snapshot. -/
def overrunService (s : State) : State :=
  if s.samplerRun then { setFault s with samplerRun := false, ovrPend := false } else { s with ovrPend := false }

/-- The services of the converter that are pending, in the arbiter's order: the breach, then the overrun (60_exceptions.md
R257, R258). -/
def settleConverter (s : State) : State :=
  if s.awdPend then (if s.ovrPend then overrunService (breachService s) else breachService s)
  else if s.ovrPend then overrunService s else s

/-- `SAMPLER_START` (R229). By itself it touches neither FAULT nor the Sample Array. Only the breach service and reset clear
AWD_PEND (R223), and a latch is cleared by the service of its event (10_state.md R32), so a breach or an overrun of the same
instant gets its service before SAMPLER_START acts: DEDUCED, log 25. -/
def samplerStart (s : State) : State :=
  { settleConverter s with samplerRun := true, seqIdx := 0, awdPend := false, ovrPend := false }

/-- `CFG_THRESHOLD(t)` (R230). It causes no comparison. -/
def cfgThreshold (t : Nat) (s : State) : State :=
  { s with sa := { s.sa with threshold := sampleOf s.cfg t } }

end Sys2Proof.Machine
end

