-- ==== Sys2Proof/Machine/Control.lean ====
section
/-! DEFINITION. RESET, TEST and the unsupported commands (44_reset_test_unsupported.md). -/

namespace Sys2Proof.Machine

open Sys2Proof

/-- RESET, command service (R200): nothing is placed outgoing, the byte-clock handler is not enabled. -/
def execReset (s : State) : Host.Outcome State Fault Refusal := .next (raiseSystemReset s)

/-- TEST, command service (R201). No call. -/
def testCommand (s : State) : State := ((s.place s.cfg.ackByte).aim s.cfg.diagAddr).openStream .test

/-- TEST with a low nibble of 0 to 7 (R201, R206); the nibble has no further effect (30_encoding.md R98). -/
def execTest0to7 (_arg4 : Nibble) (s : State) : Host.Outcome State Fault Refusal := .next (testCommand s)

/-- TEST with a low nibble of 8 to 11 (R201, R206). -/
def execTest8to11 (_arg4 : Nibble) (s : State) : Host.Outcome State Fault Refusal := .next (testCommand s)

/-- TEST with a low nibble of 12 or 13 (R201, R206). -/
def execTest12to13 (_arg4 : Nibble) (s : State) : Host.Outcome State Fault Refusal := .next (testCommand s)

/-- TEST with the low nibble 14 (R201, R206). -/
def execTest14 (s : State) : Host.Outcome State Fault Refusal := .next (testCommand s)

/-- Unsupported command, command service (R204): the zero byte, the cursor stays as it is. -/
def unsupCommand (s : State) : State := (s.place Config.unsupByte).openStream .unsup

/-- Unsupported command 0101xxxx (R204). -/
def execUnsup5 (_arg4 : Nibble) (s : State) : Host.Outcome State Fault Refusal := .next (unsupCommand s)

/-- Unsupported command 011xxxxx (R204). -/
def execUnsup6to7 (_opc _arg4 : Nibble) (s : State) : Host.Outcome State Fault Refusal := .next (unsupCommand s)

/-- TEST, byte-clock service (R202): the cursor's low byte before the increment. No call. -/
def streamTest (s : State) : State := curInc (s.place (trunc8 s.cursor.addr))

/-- Byte-clock service of an operation without a data phase (40_framing.md R129). -/
def streamZero (s : State) : State := s.place Config.unsupByte

end Sys2Proof.Machine
end

