-- ==== Sys2Proof/Machine/Function.lean ====
section
/-! DEFINITION. ENABLE and DISABLE (43_function_control.md). -/

namespace Sys2Proof.Machine

open Sys2Proof

/-- ENABLE, command service (R190): the call is made at once, the cursor stays as it is. -/
def execEnable (id : Nibble) (s : State) : Host.Outcome State Fault Refusal :=
  .next ((callFunctionEnable id (s.place s.cfg.ackByte)).openStream .enable)

/-- DISABLE, command service (R191). -/
def execDisable (id : Nibble) (s : State) : Host.Outcome State Fault Refusal :=
  .next ((callFunctionDisable id (s.place s.cfg.ackByte)).openStream .disable)

end Sys2Proof.Machine
end

