-- ==== Sys2Proof/Machine/Queue.lean ====
section
/-! DEFINITION. SEND and RECV (42_queue_send_recv.md). -/

namespace Sys2Proof.Machine

open Sys2Proof

/-- What SEND does with the answer of `send_prepare()` (R165). -/
def adoptSendGrant (g : Option Addr) (s : State) : State :=
  match g with
  | some a => (setSendPending s).aim a
  | none => s.dropCursor

/-- What RECV does with the answer of `recv_front()` (R170): on a grant the first byte is fetched and the cursor stands on
the next; without one TXDATA is not written. The fetch sees STATUS from before the service (00_scope.md R11), so a grant
at STATUS_ADDR reads RECV_PENDING as it was; R170's "in this order" is taken to order the calls: DEDUCED, log 24. -/
def adoptRecvGrant (g : Option Addr) (s : State) : State :=
  match g with
  | some a => setRecvPending (((memRead a s).2.place (memRead a s).1).aim (nextAddr a))
  | none => s.dropCursor

/-- SEND, command service (R165). The low nibble is ignored (30_encoding.md R98). -/
def execSend (_arg4 : Nibble) (s : State) : Host.Outcome State Fault Refusal :=
  .next ((adoptSendGrant s.env.sendGrant (callSendPrepare (s.place s.cfg.ackByte))).openStream .send)

/-- RECV, command service (R170). The low nibble is ignored (R98). -/
def execRecv (_arg4 : Nibble) (s : State) : Host.Outcome State Fault Refusal :=
  .next ((adoptRecvGrant s.env.recvGrant (callRecvFront s)).openStream .recv)

/-- SEND, byte-clock service (R166): write, acknowledge, advance. -/
def streamSend (b : Byte) (s : State) : State := curInc ((curWrite b s).place s.cfg.ackByte)

end Sys2Proof.Machine
end

