-- ==== Sys2Proof/Machine/Read.lean ====
section
/-! DEFINITION. READ (41_read.md): command service, address-low service, byte-clock service, and the meaning of the whole
two-byte header. -/

namespace Sys2Proof.Machine

open Sys2Proof

/-- READ, command service (R150): handshake outgoing, AHI, then wait for the low byte. -/
def readCommand (hi7 : Page) (s : State) : State :=
  { s.place Config.handshakeByte with ahi := hi7, phase := .addrLo }

/-- READ, address-low service (R151). -/
def readAddrLow (lo : Byte) (s : State) : State :=
  (((memRead (readAddress s.ahi lo) s).2.place (memRead (readAddress s.ahi lo) s).1).aim
    (nextAddr (readAddress s.ahi lo))).openStream .read

/-- Byte-clock service of READ and RECV: `TXDATA <- CurRead(); CurInc()` (R152, 42_queue_send_recv.md R171). -/
def streamFetch (s : State) : State := curInc ((curRead s).2.place (curRead s).1)

/-- The header of READ as a whole: the command service (R150), the exchange of the low byte (40_framing.md R120), the
address-low service (R151). `step` runs it when both header bytes stand next on the wire (log 2); a header that is
interrupted is serviced by `readCommand` and `readAddrLow` apart. -/
def execRead (hi7 : Page) (lo8 : Byte) (s : State) : Host.Outcome State Fault Refusal :=
  .next (readAddrLow lo8
    { (readCommand hi7 s).exchange lo8 (readCommand hi7 s).txdata with bytePend := false })

end Sys2Proof.Machine
end

