-- ==== Sys2Proof/Machine/Dispatch.lean ====
section
/-! DEFINITION. The command service of every command (40_framing.md R124): one arm per constructor of `Instr`. -/

namespace Sys2Proof.Machine

open Sys2Proof

/-- The meaning of a command: its header's services (R124). -/
def exec (i : Instr) (s : State) : Host.Outcome State Fault Refusal :=
  match i with
  | .read hi7 lo8 => Sys2Proof.Machine.execRead hi7 lo8 s
  | .send arg4 => Sys2Proof.Machine.execSend arg4 s
  | .enable id => Sys2Proof.Machine.execEnable id s
  | .disable id => Sys2Proof.Machine.execDisable id s
  | .recv arg4 => Sys2Proof.Machine.execRecv arg4 s
  | .reset => Sys2Proof.Machine.execReset s
  | .test0to7 arg4 => Sys2Proof.Machine.execTest0to7 arg4 s
  | .test8to11 arg4 => Sys2Proof.Machine.execTest8to11 arg4 s
  | .test12to13 arg4 => Sys2Proof.Machine.execTest12to13 arg4 s
  | .test14 => Sys2Proof.Machine.execTest14 s
  | .unsup5 arg4 => Sys2Proof.Machine.execUnsup5 arg4 s
  | .unsup6to7 opc arg4 => Sys2Proof.Machine.execUnsup6to7 opc arg4 s

end Sys2Proof.Machine
end

