-- ==== Sys2Proof/Machine/Framing.lean ====
section
/-! DEFINITION. The chip-select edges and the byte-clock handler (40_framing.md). -/

namespace Sys2Proof.Machine

open Sys2Proof

/-- `CS_FALL` service (R123): a transfer begins. -/
def csFallService (s : State) : State :=
  { s.dropCursor with selected := true, op := .none, phase := .cmd }

/-- The deferred commit of an outbound message (R126, 42_queue_send_recv.md R167). -/
def finalizeSend (s : State) : State := if s.sendPending then clearSendPending (callSendExecute s) else s

/-- The deferred pop of an inbound message (R126, R172). -/
def finalizeRecv (s : State) : State := if s.recvPending then clearRecvPending (callRecvPopFront s) else s

/-- `CS_RISE` service, "Finalize" (R126): it decides by the flags alone (R127), drops a byte not yet serviced (R131) and
a byte fragment (R122). -/
def csRiseService (s : State) : State :=
  { finalizeRecv (finalizeSend { s with byteIe := false, bytePend := false }) with
    selected := false, shift := 0#8, bitcnt := 0#3, misoBits := 0#8, phase := .idle }

/-- The service of a chip-select edge: one latch serves both edges and PHASE tells them apart (90_conflicts.md C10,
log 13). In HALT no edge is serviced (R133). -/
def edgeService (s : State) : State :=
  match s.phase with
  | .idle => csFallService { s with csPend := false }
  | .cmd => csRiseService { s with csPend := false }
  | .addrLo => csRiseService { s with csPend := false }
  | .stream => csRiseService { s with csPend := false }
  | .halt => s

/-- Byte-clock service (R128): it dispatches on OP alone. -/
def byteClockService (b : Byte) (s : State) : State :=
  match s.op with
  | .read => streamFetch s
  | .recv => streamFetch s
  | .send => streamSend b s
  | .test => streamTest s
  | .enable => streamZero s
  | .disable => streamZero s
  | .unsup => streamZero s
  | .none => streamZero s

end Sys2Proof.Machine
end

