-- ==== Sys2Proof/Machine/Service.lean ====
section
/-! DEFINITION. From events to services: the presentation of an event (which sets a latch, or acts at once where no
service waits on it), the header bytes a command is decoded from, the arbiter and the service it picks
(60_exceptions.md R255 to R261). -/

namespace Sys2Proof.Machine

open Sys2Proof

/-- One thing after another: what stops, stops the whole. -/
def andThen (o : Host.Outcome State Fault Refusal) (f : State → Host.Outcome State Fault Refusal) :
    Host.Outcome State Fault Refusal :=
  match o with
  | .next s => f s
  | .fault r => .fault r
  | .refused r => .refused r

/-! ### Header bytes -/

/-- The master byte that stands next on the wire with nothing before it, and the inputs after it. -/
def waitingByte : List Instant → Option (Byte × List Instant)
  | [.byte m] :: later => some (m, later)
  | _ => none

/-- The byte that stands next with its byte time not yet begun: no clock period of it has come (log 14). -/
def nextHeaderByte (s : State) : Option (Byte × List Instant) :=
  if s.bitcnt = 0#3 then waitingByte s.inputs else none

/-- Command service of the byte in RXDATA (40_framing.md R124). The header is decoded from that byte and the byte that
stands next on the wire, if one does: both make up the header of a READ, which then runs whole (log 2); a READ whose low
byte is not there yet waits in ADDR_LO (41_read.md R150). -/
def commandService (s : State) : Host.Outcome State Fault Refusal :=
  match nextHeaderByte s with
  | some (lo, later) =>
    match decode [s.rxdata, lo] with
    | .ok (i, []) => exec i { s with inputs := later }
    | .ok (i, _ :: _) => exec i s
    | .error _ => .next (readCommand (hi7Of s.rxdata) s)
  | none =>
    match decode [s.rxdata] with
    | .ok (i, _) => exec i s
    | .error _ => .next (readCommand (hi7Of s.rxdata) s)

/-! ### Arbiter -/

/-- What an arbiter chooses among (R256, R257). -/
inductive Source where
  | breach
  | overrun
  | edge
  | byte
  deriving DecidableEq, Repr

/-- BYTE_PEND is enabled for a header byte in CMD and ADDR_LO, for a data byte while `BYTE_IE = 1` (R256). -/
def byteEnabled (s : State) : Bool :=
  match s.phase with
  | .cmd => true
  | .addrLo => true
  | .stream => s.byteIe
  | .idle => false
  | .halt => false

/-- The pending and enabled source of highest priority: breach, overrun, chip-select edge, byte (R257, R258). In HALT
nothing is enabled (R256, 40_framing.md R133). -/
def arbiter (s : State) : Option Source :=
  if s.phase = .halt then none
  else if s.awdPend then some .breach
  else if s.ovrPend then some .overrun
  else if s.csPend then some .edge
  else if s.bytePend && byteEnabled s then some .byte
  else none

/-- The service of a byte by phase (40_framing.md R120). -/
def byteService (s : State) : Host.Outcome State Fault Refusal :=
  match s.phase with
  | .cmd => commandService s
  | .addrLo => .next (readAddrLow s.rxdata s)
  | .stream => .next (byteClockService s.rxdata s)
  | .idle => .next s
  | .halt => .next s

/-- One service, complete and indivisible, clearing its latch (R256, R259). -/
def service (src : Source) (s : State) : Host.Outcome State Fault Refusal :=
  match src with
  | .breach => .next (breachService s)
  | .overrun => .next (overrunService s)
  | .edge => .next (edgeService s)
  | .byte => byteService { s with bytePend := false }

/-- "The arbiter picks the one of highest priority and runs its service; it repeats until none is set" (R258), at most
`n` times. -/
def arbitrate : Nat → State → Host.Outcome State Fault Refusal
  | 0, s => .next s
  | n + 1, s =>
    match arbiter s with
    | none => .next s
    | some src => andThen (service src s) (arbitrate n)

/-- Each service clears its latch and sets none, so four services, one per latch, leave none set. -/
def serviceRounds : Nat := 4

/-! ### Presentation -/

/-- A falling edge: only in IDLE (40_framing.md R123, R132). -/
def presentFall (s : State) : Host.Outcome State Fault Refusal :=
  if s.phase = .halt then .next s
  else if s.csPend then .refused .edgeNotYetServiced
  else if s.phase = .idle then .next { s with csPend := true }
  else .refused .fallWhileSelected

/-- A rising edge: only in CMD, ADDR_LO and STREAM (R126, R137). -/
def presentRise (s : State) : Host.Outcome State Fault Refusal :=
  if s.phase = .halt then .next s
  else if s.csPend then .refused .edgeNotYetServiced
  else if s.phase = .idle then .refused .riseWhileDeselected
  else .next { s with csPend := true }

/-- An exchange in HALT: no state changes, the slave byte is unspecified (R133): a free value (log 9). -/
def haltExchange (m : Byte) (s : State) : State :=
  { s with
    trace := s.trace ++ [.exchange m (Config.haltSlaveByte s.env.draws)],
    env := { s.env with draws := s.env.draws + 1 } }

/-- A whole byte time (R120, R121): the slave byte is TXDATA as it is when the byte time begins. -/
def presentByte (m : Byte) (s : State) : Host.Outcome State Fault Refusal :=
  if s.phase = .halt then .next (haltExchange m s)
  else if s.selected = false ∨ s.phase = .idle then .refused .byteWhileDeselected
  else if s.bitcnt ≠ 0#3 then .refused .byteInsideByteTime
  else if s.bytePend then .refused .byteNotYetServiced
  else .next (s.exchange m s.txdata)

/-- What the serialiser shifts in a clock period: TXDATA at the first edge of a byte time, SHIFT after it (10_state.md
R27). -/
def serialByte (s : State) : BitVec 8 := if s.bitcnt = 0#3 then s.txdata else s.shift

/-- One bit into the low end, the others one place up (R27). -/
def shiftIn (v : BitVec 8) (b : Bool) : BitVec 8 := v.extractLsb' 0 7 ++ BitVec.ofBool b

/-- One clock period: the top bit goes to MISO, MOSI comes in at the low end; after the eighth the byte is complete (R27,
most significant bit first). While not selected, and in HALT, the clock is ignored (R28, R121, R133). A byte time that
begins while the byte before it waits for its service is refused (70_reset_and_hazards.md R296, U8). -/
def presentBit (mosi : Bool) (s : State) : Host.Outcome State Fault Refusal :=
  if s.phase = .halt ∨ s.selected = false ∨ s.phase = .idle then .next s
  else if s.bytePend then .refused .byteNotYetServiced
  else if s.bitcnt ≠ 7#3 then
    .next { s with
      shift := shiftIn (serialByte s) mosi, bitcnt := s.bitcnt + 1#3,
      misoBits := shiftIn s.misoBits ((serialByte s).getLsbD 7) }
  else .next (s.exchange (shiftIn s.shift mosi) (shiftIn s.misoBits (s.shift.getLsbD 7)))

/-- An event of the converter or of the SYSTEM has no effect in HALT (R130, R133). -/
def unlessHalted (f : State → State) (s : State) : State := if s.phase = .halt then s else f s

/-- An event becomes known to the block: a latch is set, or it acts at once (CONV is "never delayed by any service", R255;
RESET_IN, SAMPLER_START and CFG_THRESHOLD wait on no latch, logs 12, 25). -/
def present (e : Event) (s : State) : Host.Outcome State Fault Refusal :=
  match e with
  | .csFall => presentFall s
  | .csRise => presentRise s
  | .byte m => presentByte m s
  | .sck mosi => presentBit mosi s
  | .conv v => .next (unlessHalted (convService v) s)
  | .overrun => .next (unlessHalted (fun s => { s with ovrPend := true }) s)
  | .resetIn => .next (resetInService s)
  | .cfgThreshold t => .next (unlessHalted (cfgThreshold t) s)
  | .samplerStart => .next (unlessHalted samplerStart s)
  | .env m => .next (envMove m s)

/-- The events of one instant, none serviced in between (R258), but for what SAMPLER_START settles first (log 25). -/
def presentAll : Instant → State → Host.Outcome State Fault Refusal
  | [], s => .next s
  | e :: es, s => andThen (present e s) (presentAll es)

/-- One instant: its events are presented and everything pending is serviced, before the next instant (R258, R259). With
no input left the block is at rest (70_reset_and_hazards.md R307) but for what is still pending. -/
def serviceNextInstant (s : State) : Host.Outcome State Fault Refusal :=
  match s.inputs with
  | [] => arbitrate serviceRounds s
  | now :: later => andThen (presentAll now { s with inputs := later }) (arbitrate serviceRounds)

/-- A transfer is open and its header bytes stand next on the wire: the state `CS_FALL` leaves (40_framing.md R123), no
event pending, and one BYTE event per header byte before the inputs there are. -/
def awaitHeader (header : List Byte) (s : State) : State :=
  { csFallService s with
    byteIe := false, csPend := false, bytePend := false, awdPend := false, ovrPend := false,
    shift := 0#8, bitcnt := 0#3, misoBits := 0#8,
    inputs := header.map (fun m => [.byte m]) ++ s.inputs }

/-- The header bytes among the bytes of an instruction: two for READ, one for every other command (30_encoding.md R91). -/
def headerOf : List Byte → List Byte
  | [] => []
  | c :: later => if isFormatA c then c :: later.take 1 else [c]

end Sys2Proof.Machine
end

