-- ==== Sys2Proof/Machine/Step.lean ====
section
/-! DEFINITION. One step of the machine: one instant of events, serviced completely (Machine/Service.lean). -/

namespace Sys2Proof.Machine

open Sys2Proof

/-- One step: the next instant of the inputs (00_scope.md R9, 60_exceptions.md R258, R259). -/
def step (s : State) : Host.Outcome State Fault Refusal := Sys2Proof.Machine.serviceNextInstant s

/-- The host has selected the block and clocks the header of the instruction whose bits are `w` next, so that the next
step runs exactly that instruction (log 1). -/
def State.withFetchWord (s : State) (nbits w : Nat) : State :=
  Sys2Proof.Machine.awaitHeader (Sys2Proof.Machine.headerOf (Sys2Proof.wordBytes nbits w)) s

end Sys2Proof.Machine
end

