-- ==== Sys2Proof/Safety.lean ====
section
/-! DEFINITION. The vocabulary of the claims: the invariant of the machine (10_state.md R27 to R32), the situations a
transfer goes through, and what the wire half of an exchange leaves. -/

namespace Sys2Proof.Machine

open Sys2Proof

/-- No latch is set (R32: between events each latch is 0). -/
def Quiet (s : State) : Prop :=
  s.awdPend = false ∧ s.ovrPend = false ∧ s.csPend = false ∧ s.bytePend = false

/-- Every slot of the Sample Array fits SAMPLE_W bits (R33). -/
def SamplesFit (s : State) : Prop :=
  s.sa.vbus < 2 ^ s.cfg.sampleW ∧ s.sa.isense < 2 ^ s.cfg.sampleW ∧ s.sa.vref < 2 ^ s.cfg.sampleW ∧
  s.sa.threshold < 2 ^ s.cfg.sampleW ∧ s.sa.snapshot < 2 ^ s.cfg.sampleW

/-- What holds at reset and is kept by every step. -/
structure MachineInvariant (s : State) : Prop where
  /-- `BYTE_IE = 1` exactly when `PHASE = STREAM` (R29). -/
  byteIeIffStream : s.byteIe = true ↔ s.phase = .stream
  /-- Not selected exactly in IDLE (R28, 40_framing.md R123, R126, R200). -/
  deselectedIffIdle : s.selected = false ↔ s.phase = .idle
  /-- At most one of SEND_PENDING and RECV_PENDING (R31). -/
  onePending : ¬ (s.sendPending = true ∧ s.recvPending = true)
  /-- SEND_PENDING belongs to a SEND whose data phase is open (R38(c), 42_queue_send_recv.md R167). -/
  sendPendingInSend : s.sendPending = true → s.phase = .stream ∧ s.op = .send
  /-- RECV_PENDING belongs to a RECV whose data phase is open (R172). -/
  recvPendingInRecv : s.recvPending = true → s.phase = .stream ∧ s.op = .recv
  /-- Until its header is complete a transfer has no operation and no cursor (R41, 41_read.md R150). -/
  headerBlank : s.phase = .cmd ∨ s.phase = .addrLo → s.op = .none ∧ s.cursor.valid = false
  /-- OP is set before STREAM is entered (40_framing.md R125, R129). -/
  streamHasOp : s.phase = .stream → s.op ≠ .none
  /-- The cursor of a data phase is valid in READ, in TEST, and in a SEND or RECV whose slot was granted (R151, R165,
  R168, R170, R173, R190, R201, R204). -/
  cursorInStream : s.phase = .stream →
    (s.cursor.valid = true ↔ s.op = .read ∨ s.op = .test ∨ s.sendPending = true ∨ s.recvPending = true)
  /-- No latch is set between events (R32). -/
  quiet : Quiet s
  /-- SHIFT and BITCNT are 0 while not selected (R27). -/
  serialCleared : s.selected = false → s.shift = 0#8 ∧ s.bitcnt = 0#3
  /-- The Register File's cells are in canonical form. -/
  memoryCanonical : s.env.mem.wf s.env.blank = true
  /-- Samples fit their slots (R33). -/
  samplesFit : SamplesFit s
  /-- The overlays are distinct and below 0x8000 (20_memory.md R63). -/
  overlaysPlaced : s.cfg.wf = true

/-- A transfer is open and its command byte is awaited (R21: CMD), between byte times, nothing pending. -/
def AtCommand (s : State) : Prop := s.phase = .cmd ∧ s.selected = true ∧ s.bitcnt = 0#3 ∧ Quiet s

/-- The low byte of a READ is awaited (R21: ADDR_LO), between byte times, nothing pending. -/
def AtLowByte (s : State) : Prop := s.phase = .addrLo ∧ s.selected = true ∧ s.bitcnt = 0#3 ∧ Quiet s

/-- A data phase is open (R21: STREAM), between byte times, nothing pending. -/
def AtData (s : State) : Prop :=
  s.phase = .stream ∧ s.byteIe = true ∧ s.selected = true ∧ s.bitcnt = 0#3 ∧ Quiet s

/-- What the exchange of master byte `m` leaves before its service changes anything else: the slave byte was TXDATA, both
bytes are in the trace, before the calls of the service (log 17), RXDATA and the serialiser hold `m` (40_framing.md R120,
10_state.md R27, log 14), and `later` are the inputs still to come. -/
def afterByte (m : Byte) (later : List Instant) (s : State) : State :=
  { s with
    rxdata := m, shift := m, bitcnt := 0#3, misoBits := s.txdata, inputs := later,
    trace := s.trace ++ [.exchange m s.txdata] }

/-- One BYTE event per byte, each an instant of its own. -/
def byteEvents (ms : List Byte) : List Instant := ms.map (fun m => [.byte m])

/-- The eight clock periods of a byte, most significant bit first (10_state.md R27). -/
def clockPeriods (m : Byte) : List Instant :=
  [[.sck (m.getLsbD 7)], [.sck (m.getLsbD 6)], [.sck (m.getLsbD 5)], [.sck (m.getLsbD 4)],
   [.sck (m.getLsbD 3)], [.sck (m.getLsbD 2)], [.sck (m.getLsbD 1)], [.sck (m.getLsbD 0)]]

/-- An event of the converter or of out-of-scope software that configures the monitor (00_scope.md R9; 40_framing.md
R130: it "never change[s] PHASE"). -/
def Event.ofMonitor : Event → Bool
  | .conv _ => true
  | .overrun => true
  | .cfgThreshold _ => true
  | .samplerStart => true
  | .csFall => false
  | .csRise => false
  | .byte _ => false
  | .sck _ => false
  | .resetIn => false
  | .env _ => false

/-- A move of the environment (log 8). -/
def Event.ofEnvironment : Event → Bool
  | .env _ => true
  | .conv _ => false
  | .overrun => false
  | .cfgThreshold _ => false
  | .samplerStart => false
  | .csFall => false
  | .csRise => false
  | .byte _ => false
  | .sck _ => false
  | .resetIn => false

/-- `n` steps of the machine, as the host runs it. -/
def runSteps (n : Nat) (s : State) : Host.Outcome State Fault Refusal := Host.Core.run Sys2Proof.core n s

/-- The address `n` places after `a`, modulo 2^15 (20_memory.md R69). -/
def addrPlus (a : Addr) (n : Nat) : Addr := a + BitVec.ofNat 15 n

/-- What a fetch at `a` that yields `v` leaves in the trace: a `register_read`, or nothing in an overlay (20_memory.md R62). -/
def fetchCall (s : State) (a : Addr) (v : Byte) : List Obs :=
  if inOverlay s a then [] else [.call (.registerRead a v)]

/-- A granted `send_prepare()` in the trace. -/
def Obs.isSendGrant : Obs → Bool
  | .call (.sendPrepare (some _)) => true
  | _ => false

/-- A granted `recv_front()` in the trace. -/
def Obs.isRecvGrant : Obs → Bool
  | .call (.recvFront (some _)) => true
  | _ => false

/-- Every grant in the trace has been committed or is the one the pending flag stands for (42_queue_send_recv.md R175). -/
def GrantsBalanced (s : State) : Prop :=
  s.trace.countP Obs.isSendGrant =
    s.trace.countP (fun o => decide (o = .call .sendExecute)) + (if s.sendPending then 1 else 0) ∧
  s.trace.countP Obs.isRecvGrant =
    s.trace.countP (fun o => decide (o = .call .recvPopFront)) + (if s.recvPending then 1 else 0)

end Sys2Proof.Machine
end

