-- ==== Sys2Proof/Certificates/Slice0/Obligations.lean ====
section
/-! DEFINITION. The statements for the provers, one Prop each (OBLIGATIONS.json lists them). `later` is always the list of
inputs still to come after the events a statement speaks of. Three conventions are the model's wherever they are met: no call
but register_write changes a cell and no call changes a grant (log 8), a whole byte leaves the serialiser as its eighth clock
period would (log 14), and an exchange stands in the trace before the calls of its service (log 17). -/

open Sys2Proof Sys2Proof.Machine

/-! ### Encoding (30_encoding.md) -/

/-- Words of every family, written from the encodings of 30_encoding.md and the boundary bytes of V-ENC-1. -/
def Obligations.SampleHeadersDecode : Prop :=
  decode [0x80#8, 0x23#8] = .ok (.read 0x00#7 0x23#8, []) ∧
  decode [0xFF#8, 0xFF#8] = .ok (.read 0x7F#7 0xFF#8, []) ∧
  decode [0x0F#8] = .ok (.send 0xF#4, []) ∧
  decode [0x15#8] = .ok (.enable 5#4, []) ∧
  decode [0x2F#8] = .ok (.disable 15#4, []) ∧
  decode [0x3A#8] = .ok (.recv 0xA#4, []) ∧
  decode [0x4F#8] = .ok (.reset, []) ∧
  decode [0x47#8] = .ok (.test0to7 7#4, []) ∧
  decode [0x4B#8] = .ok (.test8to11 11#4, []) ∧
  decode [0x4D#8] = .ok (.test12to13 13#4, []) ∧
  decode [0x4E#8] = .ok (.test14, []) ∧
  decode [0x50#8] = .ok (.unsup5 0#4, []) ∧
  decode [0x7F#8] = .ok (.unsup6to7 7#4 15#4, [])

/-- R104 by the hex ranges of R97, and the header decoder classifies as it does, whatever follows the command byte. -/
def Obligations.CommandByteClassified : Prop :=
  (∀ c : Byte,
    (0x80 ≤ c.toNat → classify c = .read (BitVec.ofNat 7 (c.toNat - 0x80))) ∧
    (c.toNat ≤ 0x0F → classify c = .send) ∧
    (0x10 ≤ c.toNat ∧ c.toNat ≤ 0x1F → classify c = .enable (BitVec.ofNat 4 (c.toNat - 0x10))) ∧
    (0x20 ≤ c.toNat ∧ c.toNat ≤ 0x2F → classify c = .disable (BitVec.ofNat 4 (c.toNat - 0x20))) ∧
    (0x30 ≤ c.toNat ∧ c.toNat ≤ 0x3F → classify c = .recv) ∧
    (c.toNat = 0x4F → classify c = .reset) ∧
    (0x40 ≤ c.toNat ∧ c.toNat ≤ 0x4E → classify c = .test) ∧
    (0x50 ≤ c.toNat ∧ c.toNat ≤ 0x7F → classify c = .unsup)) ∧
  (∀ (c : Byte) (following : List Byte) (i : Instr) (rest : List Byte),
    decode (c :: following) = .ok (i, rest) → i.commandClass = classify c)

/-- Every command byte selects exactly one row of the opcode table, the row of the instruction it decodes to (R105). -/
def Obligations.OneRowPerCommandByte : Prop :=
  ∀ (c lo : Byte), ∃ (i : Instr) (rest : List Byte),
    decode [c, lo] = .ok (i, rest) ∧ opcodeRows.filter (selectsRow c) = [i.row]

/-- Bit 7 of the command byte alone decides between a two-byte and a one-byte header (R91); a short header is refused by
name. -/
def Obligations.HeaderLengthFromBit7 : Prop :=
  decode [] = .error .noCommandByte ∧
  (∀ c : Byte, c.getLsbD 7 = true → decode [c] = .error .missingLowByte) ∧
  (∀ (c lo : Byte) (rest : List Byte), c.getLsbD 7 = true → ∃ i, decode (c :: lo :: rest) = .ok (i, rest)) ∧
  (∀ (c : Byte) (rest : List Byte), c.getLsbD 7 = false → ∃ i, decode (c :: rest) = .ok (i, rest))

/-- Decoding an encoded well-formed command gives it back, with every operand at every value (R92, R93, R97). -/
def Obligations.DecodeOfEncode : Prop :=
  ∀ (i : Instr) (rest : List Byte), i.wf = true → decode (encode i ++ rest) = .ok (i, rest)

/-- What decodes is well formed, and encodes to the very bytes it was decoded from. -/
def Obligations.EncodeOfDecode : Prop :=
  ∀ (bytes : List Byte) (i : Instr) (rest : List Byte),
    decode bytes = .ok (i, rest) → i.wf = true ∧ encode i ++ rest = bytes

/-! ### Steps and header bytes (40_framing.md) -/

/-- With a one-byte header next on the wire, or both bytes of a READ's, a step is `exec` of the decoded command, after the
exchange of the command byte. -/
def Obligations.StepRunsDecodedCommand : Prop :=
  (∀ (s : State) (c : Byte) (i : Instr) (later : List Instant),
    AtCommand s → s.inputs = [.byte c] :: later → decode [c] = .ok (i, []) →
    step s = exec i (afterByte c later s)) ∧
  (∀ (s : State) (c lo : Byte) (i : Instr) (later : List Instant),
    AtCommand s → s.inputs = [.byte c] :: [.byte lo] :: later → decode [c, lo] = .ok (i, []) →
    step s = exec i (afterByte c later s))

/-- A READ header serviced byte by byte (here an empty instant parts the two bytes) ends in the state of the one step that
services it whole (log 2). -/
def Obligations.ReadHeaderInTwoServices : Prop :=
  ∀ (s : State) (c lo : Byte) (later : List Instant),
    AtCommand s → c.getLsbD 7 = true → s.inputs = [.byte c] :: [.byte lo] :: later →
    ∃ t, step s = .next t ∧
      runSteps 3 { s with inputs := [.byte c] :: [] :: [.byte lo] :: later } = .next t

/-- READ, command service, while the low byte is not there (41_read.md R150): BYTE_IE, OP and CURSOR stay, no call. -/
def Obligations.ReadCommandWaitsForLowByte : Prop :=
  ∀ (s : State) (hi7 : Page) (later : List Instant),
    AtCommand s → s.inputs = [.byte (1#1 ++ hi7)] :: later → waitingByte later = none →
    step s = .next { afterByte (1#1 ++ hi7) later s with txdata := 0xAA#8, ahi := hi7, phase := .addrLo }

/-- READ, address-low service (R151). No cell changes (log 8). -/
def Obligations.LowByteCompletesRead : Prop :=
  ∀ (s : State) (lo : Byte) (later : List Instant) (a : Addr),
    AtLowByte s → s.inputs = [.byte lo] :: later → a = s.ahi ++ lo →
    step s = .next { afterByte lo later s with
      txdata := memReadByte s a,
      trace := s.trace ++ [.exchange lo s.txdata] ++ memReadCalls s a,
      env := { s.env with draws := s.env.draws + (memReadCalls s a).length },
      cursor := { valid := true, addr := a + 1#15 }, op := .read, byteIe := true, phase := .stream }

/-- With no input and nothing pending the block is at rest, however long (R136, 70_reset_and_hazards.md R307); that a run
goes on at rest is the model's choice (log 22). -/
def Obligations.RestWithoutInputs : Prop :=
  ∀ (s : State) (n : Nat), Quiet s → s.inputs = [] → runSteps n s = .next s

/-! ### The address decoder (20_memory.md) -/

/-- R63: STATUS and the five slots, least significant byte first, answered without a call; for parameters that keep the
duty R63 puts on them. The layout is the spec's own decision (92_eei_decisions.md D11, D21). -/
def Obligations.DecoderAnswersOverlays : Prop :=
  ∀ s : State, s.cfg.wf = true →
    (memReadByte s s.cfg.statusAddr =
        (0#5 ++ BitVec.ofBool s.fault ++ BitVec.ofBool s.recvPending ++ BitVec.ofBool s.sendPending) ∧
      memReadCalls s s.cfg.statusAddr = []) ∧
    (∀ i k : Nat, i ≤ 4 → k < s.cfg.sampleBytes →
      memReadByte s (addrPlus s.cfg.sampleBase (s.cfg.sampleBytes * i + k)) =
        BitVec.ofNat 8 (([s.sa.vbus, s.sa.isense, s.sa.vref, s.sa.threshold, s.sa.snapshot].getD i 0) >>> (8 * k)) ∧
      memReadCalls s (addrPlus s.cfg.sampleBase (s.cfg.sampleBytes * i + k)) = [])

/-- R62: outside the overlays a read is one `register_read`, whose answer is the byte last written there (R73). -/
def Obligations.DecoderAsksRegisterFile : Prop :=
  ∀ (s : State) (a : Addr),
    a ≠ s.cfg.statusAddr →
    ¬ (s.cfg.sampleBase.toNat ≤ a.toNat ∧ a.toNat < s.cfg.sampleBase.toNat + 5 * s.cfg.sampleBytes) →
    memReadCalls s a = [.call (.registerRead a (memReadByte s a))] ∧
    (∀ v, cell s a = some v → memReadByte s a = v)

/-- The reference environment ENV0 (R80, the spec's decision D30): where an unlisted cell holds a byte `w`, MEM is total:
a cell not listed holds `w`, every cell holds a byte, and a read outside the overlays answers it; in ENV0 with no cells
given that byte is 0x00 everywhere. `MEM[a] <- v` outside the overlays sets that cell and no other. -/
def Obligations.ReferenceEnvironmentIsTotal : Prop :=
  (∀ (c : Config) (a : Addr), cell (State.resetWith c Env.env0) a = some 0x00#8) ∧
  (∀ (s : State) (a : Addr) (w : Byte), s.env.blank = some w →
    (s.env.mem.read? a.toNat = none → cell s a = some w) ∧
    ∃ v, cell s a = some v ∧ (inOverlay s a = false → memReadByte s a = v)) ∧
  (∀ (s : State) (a b : Addr) (v : Byte), inOverlay s a = false →
    (memWrite a v s).env.blank = s.env.blank ∧
    cell (memWrite a v s) b = (if b = a then some v else cell s b))

/-! ### Command services: the meaning of every command, in every state -/

/-- READ, the whole header (R150, R151). No cell changes (log 8): the environment differs only in the count of answers
drawn. -/
def Obligations.ReadHeader : Prop :=
  ∀ (hi7 : Page) (lo8 : Byte) (s : State) (a : Addr), a = hi7 ++ lo8 →
    exec (.read hi7 lo8) s = .next { s with
      ahi := hi7, rxdata := lo8, shift := lo8, bitcnt := 0#3, misoBits := 0xAA#8, bytePend := false,
      txdata := memReadByte s a,
      trace := s.trace ++ [.exchange lo8 0xAA#8] ++ memReadCalls s a,
      env := { s.env with draws := s.env.draws + (memReadCalls s a).length },
      cursor := { valid := true, addr := a + 1#15 }, op := .read, byteIe := true, phase := .stream }

/-- SEND, command service (42_queue_send_recv.md R165), with and without a grant, for every low nibble. That the cursor
stands at `g` itself is the spec's decision D42; that send_prepare changes nothing in the environment is log 8. -/
def Obligations.SendCommand : Prop :=
  ∀ (arg4 : Nibble) (s : State),
    (∀ g, s.env.sendGrant = some g →
      exec (.send arg4) s = .next { s with
        txdata := s.cfg.ackByte, trace := s.trace ++ [.call (.sendPrepare (some g))],
        sendPending := true, cursor := { valid := true, addr := g },
        op := .send, byteIe := true, phase := .stream }) ∧
    (s.env.sendGrant = none →
      exec (.send arg4) s = .next { s with
        txdata := s.cfg.ackByte, trace := s.trace ++ [.call (.sendPrepare none)],
        cursor := { valid := false, addr := s.cursor.addr },
        op := .send, byteIe := true, phase := .stream })

/-- RECV, command service (R170), with and without a grant, for every low nibble; TXDATA is not written without one (the
spec's own decision D29, log 10). The first byte is read with STATUS as it was before the service (R11,
log 24); no cell changes (log 8). -/
def Obligations.RecvCommand : Prop :=
  ∀ (arg4 : Nibble) (s : State),
    (∀ g, s.env.recvGrant = some g →
      exec (.recv arg4) s = .next { s with
        recvPending := true,
        txdata := memReadByte s g,
        trace := s.trace ++ [.call (.recvFront (some g))] ++ memReadCalls s g,
        env := { s.env with draws := s.env.draws + (memReadCalls s g).length },
        cursor := { valid := true, addr := g + 1#15 },
        op := .recv, byteIe := true, phase := .stream }) ∧
    (s.env.recvGrant = none →
      exec (.recv arg4) s = .next { s with
        trace := s.trace ++ [.call (.recvFront none)],
        cursor := { valid := false, addr := s.cursor.addr },
        op := .recv, byteIe := true, phase := .stream })

/-- ENABLE, command service (43_function_control.md R190), for every id. That ENABLE enables and never inverts is the spec's
decision D17; FUNC_EN is the reference environment's (20_memory.md R80, decision D30). -/
def Obligations.EnableCommand : Prop :=
  ∀ (id : Nibble) (s : State),
    exec (.enable id) s = .next { s with
      txdata := s.cfg.ackByte, trace := s.trace ++ [.call (.functionEnable id)],
      env := { s.env with funcEn := s.env.funcEn ||| (1#16 <<< id.toNat) },
      op := .enable, byteIe := true, phase := .stream }

/-- DISABLE, command service (R191), for every id. That it disables and never inverts is the spec's decision D17; FUNC_EN is
the reference environment's (R80, decision D30). -/
def Obligations.DisableCommand : Prop :=
  ∀ (id : Nibble) (s : State),
    exec (.disable id) s = .next { s with
      txdata := s.cfg.ackByte, trace := s.trace ++ [.call (.functionDisable id)],
      env := { s.env with funcEn := s.env.funcEn &&& ~~~(1#16 <<< id.toNat) },
      op := .disable, byteIe := true, phase := .stream }

/-- RESET, command service (44_reset_test_unsupported.md R200): one call, HALT, nothing else of the block. RESET_REQ is the
reference environment's (R80; log 16). -/
def Obligations.ResetCommand : Prop :=
  ∀ s : State,
    exec .reset s = .next { s with
      trace := s.trace ++ [.call .systemReset], env := { s.env with resetReq := true }, phase := .halt }

/-- TEST, command service (R201), for every row of TEST and every nibble (R206). -/
def Obligations.TestCommand : Prop :=
  ∀ (i : Instr) (s : State),
    (∃ arg4, i = .test0to7 arg4 ∨ i = .test8to11 arg4 ∨ i = .test12to13 arg4 ∨ i = .test14) →
    exec i s = .next { s with
      txdata := s.cfg.ackByte, cursor := { valid := true, addr := s.cfg.diagAddr },
      op := .test, byteIe := true, phase := .stream }

/-- Unsupported commands, command service (R204), for both rows. -/
def Obligations.UnsupportedCommand : Prop :=
  ∀ (i : Instr) (s : State),
    (∃ opc arg4, i = .unsup5 arg4 ∨ i = .unsup6to7 opc arg4) →
    exec i s = .next { s with txdata := 0x00#8, op := .unsup, byteIe := true, phase := .stream }

/-- What no command changes: every byte of the Register File (that no call of a command changes one is log 8), the monitor, FAULT, the parameters, SELECTED, the latches of
the other sources and the inputs; every command completes, in every state. -/
def Obligations.CommandFrame : Prop :=
  ∀ (i : Instr) (s : State), ∃ t, exec i s = .next t ∧
    (∀ a, cell t a = cell s a) ∧
    t.sa = s.sa ∧ t.seqIdx = s.seqIdx ∧ t.samplerRun = s.samplerRun ∧ t.fault = s.fault ∧
    t.cfg = s.cfg ∧ t.selected = s.selected ∧ t.inputs = s.inputs ∧
    t.awdPend = s.awdPend ∧ t.ovrPend = s.ovrPend ∧ t.csPend = s.csPend ∧
    t.env.sendCommits = s.env.sendCommits ∧ t.env.recvPops = s.env.recvPops ∧ t.env.pfCount = s.env.pfCount

/-- ENABLE and DISABLE are idempotent in the reference environment (R193): bit `f` is 1 after ENABLE(f), stays 1 after a
second one, is 0 after DISABLE(f); the other bits do not change. -/
def Obligations.FunctionControlIdempotent : Prop :=
  ∀ (f : Nibble) (s t u : State),
    (exec (.enable f) s = .next t → exec (.enable f) t = .next u →
      t.env.funcEn.getLsbD f.toNat = true ∧ u.env.funcEn = t.env.funcEn) ∧
    (exec (.enable f) s = .next t → exec (.disable f) t = .next u →
      u.env.funcEn.getLsbD f.toNat = false) ∧
    (exec (.enable f) s = .next t ∨ exec (.disable f) s = .next t →
      ∀ g : Nibble, g ≠ f → t.env.funcEn.getLsbD g.toNat = s.env.funcEn.getLsbD g.toNat)

/-! ### Data phase -/

/-- READ and RECV, byte-clock service (R152, R171): the next byte through the cursor; through an invalid cursor (a RECV
without a message) 0x00, no call, and the cursor stays invalid. No cell changes (log 8). -/
def Obligations.DataByteOfReadAndRecv : Prop :=
  ∀ (s : State) (b : Byte) (later : List Instant),
    AtData s → s.op = .read ∨ s.op = .recv → s.inputs = [.byte b] :: later →
    (s.cursor.valid = true →
      step s = .next { afterByte b later s with
        txdata := memReadByte s s.cursor.addr,
        trace := s.trace ++ [.exchange b s.txdata] ++ memReadCalls s s.cursor.addr,
        env := { s.env with draws := s.env.draws + (memReadCalls s s.cursor.addr).length },
        cursor := { valid := true, addr := s.cursor.addr + 1#15 } }) ∧
    (s.cursor.valid = false → step s = .next { afterByte b later s with txdata := 0x00#8 })

/-- SEND, byte-clock service (R166). The address stored to is the cursor's, if the cursor is valid and no overlay is
there; the byte is written to that cell and no other cell changes (log 8). Otherwise nothing is stored and no call is
issued. -/
def Obligations.DataByteOfSend : Prop :=
  ∀ (s : State) (b : Byte) (later : List Instant),
    AtData s → s.op = .send → s.inputs = [.byte b] :: later →
    ∃ t, step s = .next t ∧
      t = { afterByte b later s with
        txdata := s.cfg.ackByte, trace := t.trace, env := { s.env with mem := t.env.mem },
        cursor := if s.cursor.valid then { valid := true, addr := s.cursor.addr + 1#15 } else s.cursor } ∧
      (s.cursor.valid = true ∧ inOverlay s s.cursor.addr = false →
        t.trace = s.trace ++ [.exchange b s.txdata, .call (.registerWrite s.cursor.addr b)] ∧
        cell t s.cursor.addr = some b ∧
        ∀ a, a ≠ s.cursor.addr → cell t a = cell s a) ∧
      (s.cursor.valid = false ∨ inOverlay s s.cursor.addr = true →
        t.trace = s.trace ++ [.exchange b s.txdata] ∧ ∀ a, cell t a = cell s a)

/-- TEST, byte-clock service (R202): the cursor's low byte before the increment, no call. -/
def Obligations.DataByteOfTest : Prop :=
  ∀ (s : State) (b : Byte) (later : List Instant),
    AtData s → s.op = .test → s.inputs = [.byte b] :: later →
    (s.cursor.valid = true →
      step s = .next { afterByte b later s with
        txdata := BitVec.ofNat 8 (s.cursor.addr.toNat % 256),
        cursor := { valid := true, addr := s.cursor.addr + 1#15 } }) ∧
    (s.cursor.valid = false →
      step s = .next { afterByte b later s with txdata := BitVec.ofNat 8 (s.cursor.addr.toNat % 256) })

/-- A byte after ENABLE, DISABLE or an unsupported command (40_framing.md R129): 0x00 and nothing else. -/
def Obligations.DataByteWithoutDataPhase : Prop :=
  ∀ (s : State) (b : Byte) (later : List Instant),
    AtData s → s.op = .enable ∨ s.op = .disable ∨ s.op = .unsup ∨ s.op = .none → s.inputs = [.byte b] :: later →
    step s = .next { afterByte b later s with txdata := 0x00#8 }

/-! ### Framing -/

/-- `CS_FALL` service (R123; the registers it writes are the spec's decisions D9, D40). -/
def Obligations.FallingEdgeOpensTransfer : Prop :=
  ∀ (s : State) (later : List Instant),
    s.phase = .idle → Quiet s → s.inputs = [.csFall] :: later →
    step s = .next { s with
      inputs := later, selected := true, op := .none,
      cursor := { valid := false, addr := s.cursor.addr }, phase := .cmd }

/-- `CS_RISE` service (R126, R127), also before the header is complete (R131(a)): each deferred action once, and only if
its flag is set, the send first (that order, and that the edge ends the header's wait: the spec's decisions D38, D15). No
cell changes (log 8). -/
def Obligations.RisingEdgeFinalizes : Prop :=
  ∀ (s : State) (later : List Instant),
    s.phase = .cmd ∨ s.phase = .addrLo ∨ s.phase = .stream → Quiet s → s.inputs = [.csRise] :: later →
    step s = .next { s with
      inputs := later, byteIe := false, selected := false, shift := 0#8, bitcnt := 0#3, misoBits := 0#8,
      phase := .idle, sendPending := false, recvPending := false,
      trace := s.trace ++ (if s.sendPending then [.call .sendExecute] else [])
        ++ (if s.recvPending then [.call .recvPopFront] else []),
      env := { s.env with
        sendCommits := s.env.sendCommits + (if s.sendPending then 1 else 0),
        recvPops := s.env.recvPops + (if s.recvPending then 1 else 0) } }

/-- A byte and a rising edge at one instant, in either order (R131(b)), for a command byte, a low byte and a data byte: the
exchange happened on the wire, the edge is serviced first, the byte gets no service; what follows is what the edge alone
would have done (the spec's decisions D13, D16). -/
def Obligations.UnservicedByteIsDropped : Prop :=
  ∀ (s : State) (b : Byte) (now : Instant) (later : List Instant),
    AtCommand s ∨ AtLowByte s ∨ AtData s → now = [.byte b, .csRise] ∨ now = [.csRise, .byte b] →
    s.inputs = now :: later →
    ∃ t, step s = .next t ∧
      step { afterByte b later s with inputs := [.csRise] :: later } = .next t

/-- Phase HALT (R133): events other than RESET_IN change nothing of the block and issue no call; only the exchanges leave a
mark in the trace, with an unspecified slave byte (log 9). The phase HALT is the spec's decision D19. -/
def Obligations.HaltIgnoresEvents : Prop :=
  ∀ (s : State) (now : Instant) (later : List Instant),
    s.phase = .halt → s.inputs = now :: later →
    (∀ e ∈ now, e ≠ .resetIn ∧ e.ofEnvironment = false) →
    ∃ (t : State) (bytes : List (Byte × Byte)), step s = .next t ∧
      t = { s with
        inputs := later, trace := s.trace ++ bytes.map (fun p => .exchange p.1 p.2),
        env := { s.env with draws := s.env.draws + bytes.length } } ∧
      bytes.map (fun p => Event.byte p.1) = now.filter (fun e => decide (∃ m, e = .byte m))

/-- `RESET_IN` service (70_reset_and_hazards.md R290), in any phase and with anything pending: no call. That the environment
and the parameters stay is the model's (log 15). The registers R40 gives a value (the spec's decision D20) have it; the others are the model's choice (log 5). -/
def Obligations.ResetInRestoresRegisters : Prop :=
  ∀ (s : State) (later : List Instant), s.inputs = [.resetIn] :: later →
    ∃ t, step s = .next t ∧
      t.phase = .idle ∧ t.op = .none ∧ t.cursor.valid = false ∧ t.txdata = 0x00#8 ∧
      t.shift = 0#8 ∧ t.bitcnt = 0#3 ∧ t.selected = false ∧ t.byteIe = false ∧
      t.sendPending = false ∧ t.recvPending = false ∧ t.fault = false ∧ Quiet t ∧
      t.sa.threshold = 2 ^ (8 * s.cfg.sampleBytes) - 1 ∧ t.sa.snapshot = 0 ∧ t.seqIdx = 0 ∧ t.samplerRun = false ∧
      t.trace = s.trace ∧ t.env = s.env ∧ t.cfg = s.cfg ∧ t.inputs = later

/-- The state after reset (10_state.md R40), for the registers to which the spec gives a value (its own decision D20). -/
def Obligations.ResetStateValues : Prop :=
  State.reset.phase = .idle ∧ State.reset.op = .none ∧ State.reset.cursor.valid = false ∧
  State.reset.txdata = 0x00#8 ∧ State.reset.shift = 0#8 ∧ State.reset.bitcnt = 0#3 ∧
  State.reset.selected = false ∧ State.reset.byteIe = false ∧
  State.reset.sendPending = false ∧ State.reset.recvPending = false ∧ State.reset.fault = false ∧
  Quiet State.reset ∧
  State.reset.sa.threshold = 2 ^ (8 * State.reset.cfg.sampleBytes) - 1 ∧ State.reset.sa.snapshot = 0 ∧
  State.reset.seqIdx = 0 ∧ State.reset.samplerRun = false

/-- Host sequences the spec gives no step (R121, R132, R137) stop by name, and so does a byte time that ends or only begins
before the service of the byte before it (R296); that the model refuses them is its choice (log 11). -/
def Obligations.IllFormedSequencesRefused : Prop :=
  ∀ (s : State) (later : List Instant), Quiet s →
    (s.phase = .idle → ∀ b, s.inputs = [.byte b] :: later → step s = .refused .byteWhileDeselected) ∧
    (s.phase = .idle → s.inputs = [.csRise] :: later → step s = .refused .riseWhileDeselected) ∧
    (s.phase = .cmd ∨ s.phase = .addrLo ∨ s.phase = .stream → s.inputs = [.csFall] :: later →
      step s = .refused .fallWhileSelected) ∧
    (AtCommand s ∨ AtLowByte s ∨ AtData s → ∀ b b', s.inputs = [.byte b, .byte b'] :: later →
      step s = .refused .byteNotYetServiced) ∧
    (AtCommand s ∨ AtLowByte s ∨ AtData s → ∀ b bit, s.inputs = [.byte b, .sck bit] :: later →
      step s = .refused .byteNotYetServiced) ∧
    (s.phase = .idle → s.inputs = [.csFall, .csRise] :: later → step s = .refused .edgeNotYetServiced)

/-! ### The analog monitor (45_analog_monitor.md) -/

/-- `CONV(v)` without a breach (R220, R221, R222): the slot of SEQ_IDX takes the result, the other slots stay. The compared
channel and the strict comparison are the spec's decision D22, the slots' order and the view D21 and D28. -/
def Obligations.ConversionStored : Prop :=
  ∀ (s : State) (v : Nat) (later : List Instant),
    Quiet s → s.phase ≠ .halt → s.samplerRun = true → s.inputs = [.conv v] :: later →
    v < 2 ^ s.cfg.sampleW → ¬ (s.seqIdx = 1 ∧ s.sa.threshold < v) →
    step s = .next { s with
      inputs := later,
      sa := { s.sa with
        vbus := if s.seqIdx = 0 then v else s.sa.vbus,
        isense := if s.seqIdx = 1 then v else s.sa.isense,
        vref := if s.seqIdx = 2 then v else s.sa.vref },
      seqIdx := if s.seqIdx = 2 then 0 else if s.seqIdx = 1 then 2 else 1 }

/-- `CONV(v)` with a breach (R220, R224, R226): one `power_fault()`, FAULT, the snapshot; the latch is clear again and the
sampler runs on. The channel and the strict comparison are the spec's decision D22, the live threshold D27, one call per
conversion D23; PF_COUNT is the reference environment's (R80). -/
def Obligations.BreachServiced : Prop :=
  ∀ (s : State) (v : Nat) (later : List Instant),
    Quiet s → s.phase ≠ .halt → s.samplerRun = true → s.inputs = [.conv v] :: later →
    v < 2 ^ s.cfg.sampleW → s.seqIdx = 1 → s.sa.threshold < v →
    step s = .next { s with
      inputs := later, sa := { s.sa with isense := v, snapshot := v }, seqIdx := 2, fault := true,
      trace := s.trace ++ [.call .powerFault], env := { s.env with pfCount := s.env.pfCount + 1 } }

/-- `OVERRUN` service (R227): FAULT and the halt of the sampler, no call, no snapshot (the spec's decisions D12,
D25). -/
def Obligations.OverrunHaltsSampler : Prop :=
  ∀ (s : State) (later : List Instant),
    Quiet s → s.phase ≠ .halt → s.samplerRun = true → s.inputs = [.overrun] :: later →
    step s = .next { s with inputs := later, fault := true, samplerRun := false }

/-- Halted sampler (R228): `CONV` and `OVERRUN`, alone or several at one instant, change no state and issue no call. -/
def Obligations.HaltedSamplerIgnores : Prop :=
  ∀ (s : State) (now : Instant) (later : List Instant),
    Quiet s → s.samplerRun = false → s.inputs = now :: later →
    (∀ e ∈ now, e = .overrun ∨ ∃ v, e = .conv v) →
    step s = .next { s with inputs := later }

/-- `SAMPLER_START` (R229, the spec's decision D26): by itself it leaves FAULT and the Sample Array. A breach or an overrun
listed before it in its instant is serviced before it acts (R223, 10_state.md R32, 60_exceptions.md R257; log 25),
as BreachServiced and OverrunHaltsSampler say (decisions D12, D22, D23, D25, D27; PF_COUNT: R80). -/
def Obligations.SamplerStarts : Prop :=
  ∀ (s : State) (later : List Instant),
    Quiet s → s.phase ≠ .halt →
    (s.inputs = [.samplerStart] :: later → step s = .next { s with inputs := later, samplerRun := true, seqIdx := 0 }) ∧
    (∀ v, s.samplerRun = true → s.seqIdx = 1 → v < 2 ^ s.cfg.sampleW → s.sa.threshold < v →
      s.inputs = [.conv v, .samplerStart] :: later →
      step s = .next { s with
        inputs := later, samplerRun := true, seqIdx := 0, sa := { s.sa with isense := v, snapshot := v }, fault := true,
        trace := s.trace ++ [.call .powerFault], env := { s.env with pfCount := s.env.pfCount + 1 } }) ∧
    (s.inputs = [.overrun, .samplerStart] :: later →
      step s = .next { s with
        inputs := later, samplerRun := true, seqIdx := 0, fault := s.fault || s.samplerRun })

/-- `CFG_THRESHOLD(t)` (R230, the spec's decisions D26, D27): SA[3] alone, no comparison. -/
def Obligations.ThresholdConfigured : Prop :=
  ∀ (s : State) (v : Nat) (later : List Instant),
    Quiet s → s.phase ≠ .halt → v < 2 ^ s.cfg.sampleW → s.inputs = [.cfgThreshold v] :: later →
    step s = .next { s with inputs := later, sa := { s.sa with threshold := v } }

/-- Simultaneous events (60_exceptions.md R257, R258). The arbiter picks breach, then overrun, then chip-select edge, then
byte, in every state outside HALT, and nothing in HALT (R256). A breaching CONV, OVERRUN, CS_RISE and a byte at one instant
are serviced so, in whatever order the instant lists them; the byte of a granted SEND is lost to the edge (the spec's
decisions D13, D41; log 12). That send_execute changes no cell: log 8. -/
def Obligations.SimultaneousEventsByPriority : Prop :=
  (∀ s : State,
    (s.phase = .halt → arbiter s = none) ∧
    (s.phase ≠ .halt →
      (s.awdPend = true → arbiter s = some .breach) ∧
      (s.awdPend = false → s.ovrPend = true → arbiter s = some .overrun) ∧
      (s.awdPend = false → s.ovrPend = false → s.csPend = true → arbiter s = some .edge) ∧
      (arbiter s = some .byte ↔ s.awdPend = false ∧ s.ovrPend = false ∧ s.csPend = false ∧ s.bytePend = true ∧
        (s.phase = .cmd ∨ s.phase = .addrLo ∨ (s.phase = .stream ∧ s.byteIe = true))))) ∧
  (∀ (s : State) (v : Nat) (b : Byte) (now : Instant) (later : List Instant),
    AtData s → s.op = .send → s.sendPending = true → s.recvPending = false →
    s.samplerRun = true → s.seqIdx = 1 → v < 2 ^ s.cfg.sampleW → s.sa.threshold < v →
    (now = [.conv v, .overrun, .csRise, .byte b] ∨ now = [.byte b, .csRise, .overrun, .conv v] ∨
      now = [.csRise, .byte b, .conv v, .overrun] ∨ now = [.overrun, .conv v, .byte b, .csRise]) →
    s.inputs = now :: later →
    ∃ t, step s = .next t ∧
      t.trace = s.trace ++ [.exchange b s.txdata, .call .powerFault, .call .sendExecute] ∧
      t.fault = true ∧ t.sa.snapshot = v ∧ t.samplerRun = false ∧
      t.phase = .idle ∧ t.sendPending = false ∧ t.cursor = s.cursor ∧ (∀ a, cell t a = cell s a))

/-! ### Invariants and whole-machine rules -/

/-- Every step keeps the invariant, from every state that has it. `headerBlank` rests on the spec's decision D9,
`serialCleared` on D1, `deselectedIffIdle` on D40; `memoryCanonical` and `samplesFit` are the model's own forms (logs 7, 4).
-/
def Obligations.StepKeepsInvariant : Prop :=
  ∀ s t : State, MachineInvariant s → step s = .next t → MachineInvariant t

/-- The invariant holds at reset: the values are those of R40 (the spec's decision D20); `overlaysPlaced` holds because the
model takes no parameters that break R63's duty (log 3). -/
def Obligations.InvariantAtReset : Prop := MachineInvariant State.reset

/-- FAULT is sticky (R262, the spec's decision D12): a step clears it only if its instant holds RESET_IN. -/
def Obligations.FaultIsSticky : Prop :=
  ∀ (s t : State) (now : Instant) (later : List Instant),
    s.inputs = now :: later → .resetIn ∉ now → step s = .next t → s.fault = true → t.fault = true

/-- After every step from a state with the invariant each pending flag is 0 outside its own data phase (in IDLE, CMD,
ADDR_LO and HALT, and in the data phases of READ, TEST, ENABLE, DISABLE and UNSUP, both are), and they are never 1 together
(R31, R175). -/
def Obligations.PendingFlagsInTransferOnly : Prop :=
  ∀ s t : State, MachineInvariant s → step s = .next t →
    (¬ (t.phase = .stream ∧ t.op = .send) → t.sendPending = false) ∧
    (¬ (t.phase = .stream ∧ t.op = .recv) → t.recvPending = false) ∧
    ¬ (t.sendPending = true ∧ t.recvPending = true)

/-- STATUS read in a READ (41_read.md R154): both pending flags are 0, so the byte fetched at STATUS_ADDR is 0x00 or 0x04,
by FAULT: in the address-low service, in the data phase, and where both header bytes are serviced in one step (log 2). The
place of FAULT in the byte and the overlay are the spec's decisions D10, D11. -/
def Obligations.StatusReadInRead : Prop :=
  ∀ (s t : State) (b : Byte) (hi7 : Page) (later : List Instant),
    MachineInvariant s → s.bitcnt = 0#3 → step s = .next t →
    (s.phase = .addrLo ∧ s.inputs = [.byte b] :: later ∧ s.ahi ++ b = s.cfg.statusAddr) ∨
      (s.phase = .stream ∧ s.op = .read ∧ s.inputs = [.byte b] :: later ∧ s.cursor.addr = s.cfg.statusAddr) ∨
      (s.phase = .cmd ∧ s.inputs = [.byte (1#1 ++ hi7)] :: [.byte b] :: later ∧ hi7 ++ b = s.cfg.statusAddr) →
    t.txdata = (if s.fault then 0x04#8 else 0x00#8)

/-- Converter and configuration events leave a transfer in progress alone (40_framing.md R130, 60_exceptions.md R253):
whatever they are and however many at an instant, the step completes and only the monitor, FAULT and the call of the
Fault Reactor can differ. The breaches of one instant merge into one latch (45_analog_monitor.md R223; how an instant is
presented: log 12), which SAMPLER_START has serviced before it acts (log 25): at most one call, and one more for each
SAMPLER_START. That power_fault changes no cell: log 8. -/
def Obligations.MonitorLeavesTransferAlone : Prop :=
  ∀ (s : State) (now : Instant) (later : List Instant),
    Quiet s → s.inputs = now :: later → (∀ e ∈ now, e.ofMonitor = true) →
    ∃ t, step s = .next t ∧
      t = { s with
        inputs := later, sa := t.sa, seqIdx := t.seqIdx, samplerRun := t.samplerRun, fault := t.fault,
        trace := t.trace, env := { s.env with pfCount := t.env.pfCount } } ∧
      ∃ n, n ≤ now.count .samplerStart + 1 ∧ t.env.pfCount = s.env.pfCount + n ∧
        t.trace = s.trace ++ List.replicate n (.call .powerFault)

/-- The Register File changes only by a data byte of a SEND, at the valid cursor, outside the overlays (R42, R77, R79),
unless the environment itself moves; that no call but register_write changes a cell is log 8. -/
def Obligations.OnlySendWritesRegisterFile : Prop :=
  ∀ (s t : State) (now : Instant) (later : List Instant) (a : Addr),
    Quiet s → s.inputs = now :: later → (∀ e ∈ now, e.ofEnvironment = false) →
    step s = .next t → cell t a ≠ cell s a →
    s.phase = .stream ∧ s.op = .send ∧ s.cursor.valid = true ∧ s.cursor.addr = a ∧ inOverlay s a = false

/-- The phase machine (R130), for one event at a time; a READ whose low byte stands next goes through ADDR_LO to STREAM in
one step (log 2). -/
def Obligations.PhaseTransitions : Prop :=
  ∀ (s t : State) (e : Event) (later : List Instant),
    MachineInvariant s → s.inputs = [e] :: later → step s = .next t →
    (e = .csFall → s.phase = .idle → t.phase = .cmd) ∧
    (∀ c, e = .byte c → s.phase = .cmd →
      t.phase = (if c.getLsbD 7 then (if (waitingByte later).isSome then .stream else .addrLo)
        else if c = 0x4F#8 then .halt else .stream)) ∧
    (∀ c, e = .byte c → s.phase = .addrLo ∨ s.phase = .stream → t.phase = .stream) ∧
    (e = .csRise → s.phase = .cmd ∨ s.phase = .addrLo ∨ s.phase = .stream → t.phase = .idle) ∧
    (e = .resetIn → t.phase = .idle) ∧
    (s.phase = .halt → e ≠ .resetIn → t.phase = .halt) ∧
    (e.ofMonitor = true ∨ e.ofEnvironment = true → t.phase = s.phase)

/-- Grants and commits (R175): every granted slot is committed once, by a step of its own transfer's end or not at all;
the balance is kept by every step without RESET_IN. -/
def Obligations.CommitsMatchGrants : Prop :=
  ∀ (s t : State) (now : Instant) (later : List Instant),
    MachineInvariant s → GrantsBalanced s → s.inputs = now :: later → .resetIn ∉ now → step s = .next t → GrantsBalanced t

/-- The parameters are never written (00_scope.md R7). -/
def Obligations.ParametersNeverChange : Prop :=
  ∀ s t : State, step s = .next t → t.cfg = s.cfg

/-! ### Whole transfers -/

/-- What a READ returns (R153), for every range: handshake in exchange 1, `f (k - 2)` in exchange `k`. Outside the overlays
`f j` is the answer of a `register_read`, in order, the byte the cell holds where one is known; in an overlay it is the
overlay's byte and there is no call. No call at the end. No register_read changes a cell: log 8. Both header bytes take one
step: log 2. -/
def Obligations.ReadTransfer : Prop :=
  ∀ (s : State) (hi7 : Page) (lo : Byte) (ms : List Byte) (later : List Instant) (a : Addr),
    MachineInvariant s → AtCommand s → a = hi7 ++ lo →
    s.inputs = byteEvents ((1#1 ++ hi7) :: lo :: ms) ++ [.csRise] :: later →
    ∃ (t : State) (f : Nat → Byte), runSteps (ms.length + 2) s = .next t ∧
      t.trace = s.trace ++ [.exchange (1#1 ++ hi7) s.txdata, .exchange lo 0xAA#8] ++ fetchCall s a (f 0) ++
        (ms.mapIdx (fun j m =>
          .exchange m (f j) :: fetchCall s (addrPlus a (j + 1)) (f (j + 1)))).flatten ∧
      (∀ j v, j ≤ ms.length → inOverlay s (addrPlus a j) = false → cell s (addrPlus a j) = some v → f j = v) ∧
      (∀ j, j ≤ ms.length → inOverlay s (addrPlus a j) = true → f j = memReadByte s (addrPlus a j)) ∧
      t.phase = .idle ∧ (∀ b, cell t b = cell s b)

/-- What a SEND with a grant does (R169): the bytes clocked in are written to ascending addresses, less those on an
overlay, every slave byte is ACK_BYTE, and the commit fires once, at the end. That the first byte goes to `g` itself is
the spec's decision D42; that send_execute changes no cell: log 8. -/
def Obligations.SendTransfer : Prop :=
  ∀ (s : State) (c : Byte) (ds : List Byte) (later : List Instant) (g : Addr),
    MachineInvariant s → AtCommand s → c.toNat ≤ 0x0F → s.env.sendGrant = some g →
    s.inputs = byteEvents (c :: ds) ++ [.csRise] :: later →
    ∃ t, runSteps (ds.length + 2) s = .next t ∧
      t.trace = s.trace ++ [.exchange c s.txdata, .call (.sendPrepare (some g))] ++
        (ds.mapIdx (fun j d => .exchange d s.cfg.ackByte ::
          (if inOverlay s (addrPlus g j) then [] else [.call (.registerWrite (addrPlus g j) d)]))).flatten ++
        [.call .sendExecute] ∧
      (∀ j d, ds[j]? = some d → ds.length ≤ 2 ^ 15 → inOverlay s (addrPlus g j) = false →
        cell t (addrPlus g j) = some d) ∧
      (∀ b, (∀ j, j < ds.length → b ≠ addrPlus g j) → cell t b = cell s b) ∧
      t.phase = .idle ∧ t.sendPending = false ∧ t.env.sendCommits = s.env.sendCommits + 1

/-- A SEND without a slot (R168): every data byte is dropped without a call, every slave byte from exchange 1 on is
ACK_BYTE, no commit. That send_prepare leaves the environment as it is: log 8. -/
def Obligations.SendTransferWithoutSlot : Prop :=
  ∀ (s : State) (c : Byte) (ds : List Byte) (later : List Instant),
    MachineInvariant s → AtCommand s → c.toNat ≤ 0x0F → s.env.sendGrant = none →
    s.inputs = byteEvents (c :: ds) ++ [.csRise] :: later →
    ∃ t, runSteps (ds.length + 2) s = .next t ∧
      t.trace = s.trace ++ [.exchange c s.txdata, .call (.sendPrepare none)] ++
        ds.map (fun d => .exchange d s.cfg.ackByte) ∧
      t.env = s.env ∧ t.phase = .idle ∧ t.sendPending = false ∧ t.cursor.valid = false

/-- What a RECV with a message returns (R174), for every range: `f (k - 1)` in exchange `k`, `N + 1` reads (less those in an
overlay, which are answered without a call: the first with STATUS from before the command service, R11 and log 24, the
later ones with RECV_PENDING 1), then one pop at the end. No
register_read and no recv_pop_front changes a cell: log 8. -/
def Obligations.RecvTransfer : Prop :=
  ∀ (s : State) (c : Byte) (ms : List Byte) (later : List Instant) (g : Addr),
    MachineInvariant s → AtCommand s → 0x30 ≤ c.toNat → c.toNat ≤ 0x3F → s.env.recvGrant = some g →
    s.inputs = byteEvents (c :: ms) ++ [.csRise] :: later →
    ∃ (t : State) (f : Nat → Byte), runSteps (ms.length + 2) s = .next t ∧
      t.trace = s.trace ++ [.exchange c s.txdata, .call (.recvFront (some g))] ++ fetchCall s g (f 0) ++
        (ms.mapIdx (fun j m =>
          .exchange m (f j) :: fetchCall s (addrPlus g (j + 1)) (f (j + 1)))).flatten ++
        [.call .recvPopFront] ∧
      (∀ j v, j ≤ ms.length → inOverlay s (addrPlus g j) = false → cell s (addrPlus g j) = some v → f j = v) ∧
      (inOverlay s g = true → f 0 = memReadByte s g) ∧
      (∀ j, 1 ≤ j → j ≤ ms.length → inOverlay s (addrPlus g j) = true →
        f j = memReadByte { s with recvPending := true } (addrPlus g j)) ∧
      t.phase = .idle ∧ t.recvPending = false ∧ t.env.recvPops = s.env.recvPops + 1 ∧ (∀ b, cell t b = cell s b)

/-- A RECV without a message (R173): the stale TXDATA in exchange 1 (the spec's decision D29, log 10), 0x00
after it, no read and no pop. That recv_front leaves the environment as it is: log 8. -/
def Obligations.RecvTransferWithoutMessage : Prop :=
  ∀ (s : State) (c : Byte) (ms : List Byte) (later : List Instant),
    MachineInvariant s → AtCommand s → 0x30 ≤ c.toNat → c.toNat ≤ 0x3F → s.env.recvGrant = none →
    s.inputs = byteEvents (c :: ms) ++ [.csRise] :: later →
    ∃ t, runSteps (ms.length + 2) s = .next t ∧
      t.trace = s.trace ++ [.exchange c s.txdata, .call (.recvFront none)] ++
        ms.mapIdx (fun j m => .exchange m (if j = 0 then s.txdata else 0x00#8)) ∧
      t.env = s.env ∧ t.phase = .idle ∧ t.recvPending = false

/-- What a TEST returns (R203): ACK_BYTE in exchange 1, `(DIAG_ADDR + k - 2) mod 256` in exchange `k`, no call. -/
def Obligations.TestTransfer : Prop :=
  ∀ (s : State) (c : Byte) (ms : List Byte) (later : List Instant),
    AtCommand s → 0x40 ≤ c.toNat → c.toNat ≤ 0x4E →
    s.inputs = byteEvents (c :: ms) ++ later →
    ∃ t, runSteps (ms.length + 1) s = .next t ∧
      t.trace = s.trace ++ .exchange c s.txdata ::
        ms.mapIdx (fun j m =>
          .exchange m (if j = 0 then s.cfg.ackByte else BitVec.ofNat 8 ((s.cfg.diagAddr.toNat + (j - 1)) % 256))) ∧
      t.env = s.env

/-! ### The bit level (10_state.md R27, 40_framing.md R122) -/

/-- Eight clock periods are one BYTE event (R27, the spec's decision D1; log 14): the same state, the same slave
byte, the same service. -/
def Obligations.EightClockPeriodsAreOneByte : Prop :=
  ∀ (s : State) (m : Byte) (later : List Instant),
    AtCommand s ∨ AtLowByte s ∨ AtData s →
    ∃ t, runSteps 8 { s with inputs := clockPeriods m ++ later } = .next t ∧
      step { s with inputs := [.byte m] :: later } = .next t

/-- A byte fragment is discarded (R122, the spec's decisions D1, D16): fewer than eight clock
periods, then CS_RISE, leave RXDATA and TXDATA, complete no exchange and clear the serialiser. -/
def Obligations.FragmentDiscarded : Prop :=
  ∀ (s : State) (bits : List Bool) (later : List Instant),
    AtCommand s ∨ AtLowByte s ∨ AtData s → bits.length < 8 →
    s.inputs = bits.map (fun b => [.sck b]) ++ [.csRise] :: later →
    ∃ t, runSteps (bits.length + 1) s = .next t ∧
      t.rxdata = s.rxdata ∧ t.txdata = s.txdata ∧ t.shift = 0#8 ∧ t.bitcnt = 0#3 ∧ t.phase = .idle ∧
      t.trace = s.trace ++ (if s.sendPending then [.call .sendExecute] else [])
        ++ (if s.recvPending then [.call .recvPopFront] else [])
end

