-- ==== Sys2Proof/Laws/Decode.lean ====
section
/-! SUPPORT. What the header decoder does with each format, and what a well-placed set of parameters says. -/

namespace Sys2Proof

/-- A one-byte header (format N). -/
theorem decode_formatN {c : Byte} (h : isFormatA c = false) (rest : List Byte) :
    decode (c :: rest) = .ok (decodeFormatN c, rest) := by
  cases rest <;> simp [decode, h]

/-- A two-byte header (format A). -/
theorem decode_formatA {c : Byte} (h : isFormatA c = true) (lo : Byte) (rest : List Byte) :
    decode (c :: lo :: rest) = .ok (.read (hi7Of c) lo, rest) := by
  simp [decode, h]

/-- Format A with the low byte missing. -/
theorem decode_short {c : Byte} (h : isFormatA c = true) : decode [c] = .error .missingLowByte := by
  simp [decode, h]

/-- No byte. -/
@[simp] theorem decode_nil : decode [] = .error .noCommandByte := rfl

/-- What decodes was a one-byte header followed by the rest, or a two-byte header. -/
theorem decode_ok_cases {bytes : List Byte} {i : Instr} {rest : List Byte} (h : decode bytes = .ok (i, rest)) :
    (∃ c, bytes = c :: rest ∧ isFormatA c = false ∧ i = decodeFormatN c) ∨
    (∃ c lo, bytes = c :: lo :: rest ∧ isFormatA c = true ∧ i = .read (hi7Of c) lo) := by
  cases bytes with
  | nil => simp at h
  | cons c l =>
    cases hA : isFormatA c with
    | false =>
      rw [decode_formatN hA] at h
      cases h
      exact .inl ⟨c, rfl, hA, rfl⟩
    | true =>
      cases l with
      | nil =>
        rw [decode_short hA] at h
        cases h
      | cons lo l =>
        rw [decode_formatA hA] at h
        cases h
        exact .inr ⟨c, lo, rfl, hA, rfl⟩

/-- The duty of 20_memory.md R63 on the parameters, as inequalities. -/
theorem Config.wf_iff (c : Config) : c.wf = true ↔
    0 < c.sampleBytes ∧ c.sampleBase.toNat + 5 * c.sampleBytes ≤ 0x8000 ∧
    ¬ (c.sampleBase.toNat ≤ c.statusAddr.toNat ∧
       c.statusAddr.toNat < c.sampleBase.toNat + 5 * c.sampleBytes) := by
  have h5 : Config.slots * c.sampleBytes = 5 * c.sampleBytes := rfl
  unfold Config.wf
  rw [h5]
  simp only [Bool.and_eq_true, decide_eq_true_eq, Bool.not_eq_true', Bool.and_eq_false_iff, decide_eq_false_iff_not]
  tauto

/-- The implemented parameters keep that duty, whatever they are. -/
theorem Config.implemented_wf : Config.implemented.wf = true := by
  unfold Config.implemented
  split_ifs with h
  · exact h
  · decide

end Sys2Proof
end

