-- ==== Sys2Proof/Laws/State.lean ====
section
/-! SUPPORT. One lemma per field of State per named update (Machine/Ops.lean, Flags.lean, Analog.lean), so that no proof
unfolds a record update. -/

namespace Sys2Proof.Machine

open Sys2Proof

/-! ### call -/

@[simp] theorem call_phase (s : State) (c : Call) : (s.call c).phase = s.phase := rfl
@[simp] theorem call_op (s : State) (c : Call) : (s.call c).op = s.op := rfl
@[simp] theorem call_cursor (s : State) (c : Call) : (s.call c).cursor = s.cursor := rfl
@[simp] theorem call_ahi (s : State) (c : Call) : (s.call c).ahi = s.ahi := rfl
@[simp] theorem call_rxdata (s : State) (c : Call) : (s.call c).rxdata = s.rxdata := rfl
@[simp] theorem call_txdata (s : State) (c : Call) : (s.call c).txdata = s.txdata := rfl
@[simp] theorem call_shift (s : State) (c : Call) : (s.call c).shift = s.shift := rfl
@[simp] theorem call_bitcnt (s : State) (c : Call) : (s.call c).bitcnt = s.bitcnt := rfl
@[simp] theorem call_selected (s : State) (c : Call) : (s.call c).selected = s.selected := rfl
@[simp] theorem call_byteIe (s : State) (c : Call) : (s.call c).byteIe = s.byteIe := rfl
@[simp] theorem call_sendPending (s : State) (c : Call) : (s.call c).sendPending = s.sendPending := rfl
@[simp] theorem call_recvPending (s : State) (c : Call) : (s.call c).recvPending = s.recvPending := rfl
@[simp] theorem call_fault (s : State) (c : Call) : (s.call c).fault = s.fault := rfl
@[simp] theorem call_csPend (s : State) (c : Call) : (s.call c).csPend = s.csPend := rfl
@[simp] theorem call_bytePend (s : State) (c : Call) : (s.call c).bytePend = s.bytePend := rfl
@[simp] theorem call_awdPend (s : State) (c : Call) : (s.call c).awdPend = s.awdPend := rfl
@[simp] theorem call_ovrPend (s : State) (c : Call) : (s.call c).ovrPend = s.ovrPend := rfl
@[simp] theorem call_sa (s : State) (c : Call) : (s.call c).sa = s.sa := rfl
@[simp] theorem call_seqIdx (s : State) (c : Call) : (s.call c).seqIdx = s.seqIdx := rfl
@[simp] theorem call_samplerRun (s : State) (c : Call) : (s.call c).samplerRun = s.samplerRun := rfl
@[simp] theorem call_cfg (s : State) (c : Call) : (s.call c).cfg = s.cfg := rfl
@[simp] theorem call_env (s : State) (c : Call) : (s.call c).env = s.env := rfl
@[simp] theorem call_inputs (s : State) (c : Call) : (s.call c).inputs = s.inputs := rfl
@[simp] theorem call_trace (s : State) (c : Call) : (s.call c).trace = s.trace ++ [.call c] := rfl
@[simp] theorem call_misoBits (s : State) (c : Call) : (s.call c).misoBits = s.misoBits := rfl

/-! ### place -/

@[simp] theorem place_phase (s : State) (v : Byte) : (s.place v).phase = s.phase := rfl
@[simp] theorem place_op (s : State) (v : Byte) : (s.place v).op = s.op := rfl
@[simp] theorem place_cursor (s : State) (v : Byte) : (s.place v).cursor = s.cursor := rfl
@[simp] theorem place_ahi (s : State) (v : Byte) : (s.place v).ahi = s.ahi := rfl
@[simp] theorem place_rxdata (s : State) (v : Byte) : (s.place v).rxdata = s.rxdata := rfl
@[simp] theorem place_txdata (s : State) (v : Byte) : (s.place v).txdata = v := rfl
@[simp] theorem place_shift (s : State) (v : Byte) : (s.place v).shift = s.shift := rfl
@[simp] theorem place_bitcnt (s : State) (v : Byte) : (s.place v).bitcnt = s.bitcnt := rfl
@[simp] theorem place_selected (s : State) (v : Byte) : (s.place v).selected = s.selected := rfl
@[simp] theorem place_byteIe (s : State) (v : Byte) : (s.place v).byteIe = s.byteIe := rfl
@[simp] theorem place_sendPending (s : State) (v : Byte) : (s.place v).sendPending = s.sendPending := rfl
@[simp] theorem place_recvPending (s : State) (v : Byte) : (s.place v).recvPending = s.recvPending := rfl
@[simp] theorem place_fault (s : State) (v : Byte) : (s.place v).fault = s.fault := rfl
@[simp] theorem place_csPend (s : State) (v : Byte) : (s.place v).csPend = s.csPend := rfl
@[simp] theorem place_bytePend (s : State) (v : Byte) : (s.place v).bytePend = s.bytePend := rfl
@[simp] theorem place_awdPend (s : State) (v : Byte) : (s.place v).awdPend = s.awdPend := rfl
@[simp] theorem place_ovrPend (s : State) (v : Byte) : (s.place v).ovrPend = s.ovrPend := rfl
@[simp] theorem place_sa (s : State) (v : Byte) : (s.place v).sa = s.sa := rfl
@[simp] theorem place_seqIdx (s : State) (v : Byte) : (s.place v).seqIdx = s.seqIdx := rfl
@[simp] theorem place_samplerRun (s : State) (v : Byte) : (s.place v).samplerRun = s.samplerRun := rfl
@[simp] theorem place_cfg (s : State) (v : Byte) : (s.place v).cfg = s.cfg := rfl
@[simp] theorem place_env (s : State) (v : Byte) : (s.place v).env = s.env := rfl
@[simp] theorem place_inputs (s : State) (v : Byte) : (s.place v).inputs = s.inputs := rfl
@[simp] theorem place_trace (s : State) (v : Byte) : (s.place v).trace = s.trace := rfl
@[simp] theorem place_misoBits (s : State) (v : Byte) : (s.place v).misoBits = s.misoBits := rfl

/-! ### aim -/

@[simp] theorem aim_phase (s : State) (a : Addr) : (s.aim a).phase = s.phase := rfl
@[simp] theorem aim_op (s : State) (a : Addr) : (s.aim a).op = s.op := rfl
@[simp] theorem aim_cursor (s : State) (a : Addr) : (s.aim a).cursor = { valid := true, addr := a } := rfl
@[simp] theorem aim_ahi (s : State) (a : Addr) : (s.aim a).ahi = s.ahi := rfl
@[simp] theorem aim_rxdata (s : State) (a : Addr) : (s.aim a).rxdata = s.rxdata := rfl
@[simp] theorem aim_txdata (s : State) (a : Addr) : (s.aim a).txdata = s.txdata := rfl
@[simp] theorem aim_shift (s : State) (a : Addr) : (s.aim a).shift = s.shift := rfl
@[simp] theorem aim_bitcnt (s : State) (a : Addr) : (s.aim a).bitcnt = s.bitcnt := rfl
@[simp] theorem aim_selected (s : State) (a : Addr) : (s.aim a).selected = s.selected := rfl
@[simp] theorem aim_byteIe (s : State) (a : Addr) : (s.aim a).byteIe = s.byteIe := rfl
@[simp] theorem aim_sendPending (s : State) (a : Addr) : (s.aim a).sendPending = s.sendPending := rfl
@[simp] theorem aim_recvPending (s : State) (a : Addr) : (s.aim a).recvPending = s.recvPending := rfl
@[simp] theorem aim_fault (s : State) (a : Addr) : (s.aim a).fault = s.fault := rfl
@[simp] theorem aim_csPend (s : State) (a : Addr) : (s.aim a).csPend = s.csPend := rfl
@[simp] theorem aim_bytePend (s : State) (a : Addr) : (s.aim a).bytePend = s.bytePend := rfl
@[simp] theorem aim_awdPend (s : State) (a : Addr) : (s.aim a).awdPend = s.awdPend := rfl
@[simp] theorem aim_ovrPend (s : State) (a : Addr) : (s.aim a).ovrPend = s.ovrPend := rfl
@[simp] theorem aim_sa (s : State) (a : Addr) : (s.aim a).sa = s.sa := rfl
@[simp] theorem aim_seqIdx (s : State) (a : Addr) : (s.aim a).seqIdx = s.seqIdx := rfl
@[simp] theorem aim_samplerRun (s : State) (a : Addr) : (s.aim a).samplerRun = s.samplerRun := rfl
@[simp] theorem aim_cfg (s : State) (a : Addr) : (s.aim a).cfg = s.cfg := rfl
@[simp] theorem aim_env (s : State) (a : Addr) : (s.aim a).env = s.env := rfl
@[simp] theorem aim_inputs (s : State) (a : Addr) : (s.aim a).inputs = s.inputs := rfl
@[simp] theorem aim_trace (s : State) (a : Addr) : (s.aim a).trace = s.trace := rfl
@[simp] theorem aim_misoBits (s : State) (a : Addr) : (s.aim a).misoBits = s.misoBits := rfl

/-! ### dropCursor -/

@[simp] theorem dropCursor_phase (s : State) : s.dropCursor.phase = s.phase := rfl
@[simp] theorem dropCursor_op (s : State) : s.dropCursor.op = s.op := rfl
@[simp] theorem dropCursor_cursor (s : State) : s.dropCursor.cursor = { valid := false, addr := s.cursor.addr } := rfl
@[simp] theorem dropCursor_ahi (s : State) : s.dropCursor.ahi = s.ahi := rfl
@[simp] theorem dropCursor_rxdata (s : State) : s.dropCursor.rxdata = s.rxdata := rfl
@[simp] theorem dropCursor_txdata (s : State) : s.dropCursor.txdata = s.txdata := rfl
@[simp] theorem dropCursor_shift (s : State) : s.dropCursor.shift = s.shift := rfl
@[simp] theorem dropCursor_bitcnt (s : State) : s.dropCursor.bitcnt = s.bitcnt := rfl
@[simp] theorem dropCursor_selected (s : State) : s.dropCursor.selected = s.selected := rfl
@[simp] theorem dropCursor_byteIe (s : State) : s.dropCursor.byteIe = s.byteIe := rfl
@[simp] theorem dropCursor_sendPending (s : State) : s.dropCursor.sendPending = s.sendPending := rfl
@[simp] theorem dropCursor_recvPending (s : State) : s.dropCursor.recvPending = s.recvPending := rfl
@[simp] theorem dropCursor_fault (s : State) : s.dropCursor.fault = s.fault := rfl
@[simp] theorem dropCursor_csPend (s : State) : s.dropCursor.csPend = s.csPend := rfl
@[simp] theorem dropCursor_bytePend (s : State) : s.dropCursor.bytePend = s.bytePend := rfl
@[simp] theorem dropCursor_awdPend (s : State) : s.dropCursor.awdPend = s.awdPend := rfl
@[simp] theorem dropCursor_ovrPend (s : State) : s.dropCursor.ovrPend = s.ovrPend := rfl
@[simp] theorem dropCursor_sa (s : State) : s.dropCursor.sa = s.sa := rfl
@[simp] theorem dropCursor_seqIdx (s : State) : s.dropCursor.seqIdx = s.seqIdx := rfl
@[simp] theorem dropCursor_samplerRun (s : State) : s.dropCursor.samplerRun = s.samplerRun := rfl
@[simp] theorem dropCursor_cfg (s : State) : s.dropCursor.cfg = s.cfg := rfl
@[simp] theorem dropCursor_env (s : State) : s.dropCursor.env = s.env := rfl
@[simp] theorem dropCursor_inputs (s : State) : s.dropCursor.inputs = s.inputs := rfl
@[simp] theorem dropCursor_trace (s : State) : s.dropCursor.trace = s.trace := rfl
@[simp] theorem dropCursor_misoBits (s : State) : s.dropCursor.misoBits = s.misoBits := rfl

/-! ### openStream -/

@[simp] theorem openStream_phase (s : State) (o : Op) : (s.openStream o).phase = .stream := rfl
@[simp] theorem openStream_op (s : State) (o : Op) : (s.openStream o).op = o := rfl
@[simp] theorem openStream_cursor (s : State) (o : Op) : (s.openStream o).cursor = s.cursor := rfl
@[simp] theorem openStream_ahi (s : State) (o : Op) : (s.openStream o).ahi = s.ahi := rfl
@[simp] theorem openStream_rxdata (s : State) (o : Op) : (s.openStream o).rxdata = s.rxdata := rfl
@[simp] theorem openStream_txdata (s : State) (o : Op) : (s.openStream o).txdata = s.txdata := rfl
@[simp] theorem openStream_shift (s : State) (o : Op) : (s.openStream o).shift = s.shift := rfl
@[simp] theorem openStream_bitcnt (s : State) (o : Op) : (s.openStream o).bitcnt = s.bitcnt := rfl
@[simp] theorem openStream_selected (s : State) (o : Op) : (s.openStream o).selected = s.selected := rfl
@[simp] theorem openStream_byteIe (s : State) (o : Op) : (s.openStream o).byteIe = true := rfl
@[simp] theorem openStream_sendPending (s : State) (o : Op) : (s.openStream o).sendPending = s.sendPending := rfl
@[simp] theorem openStream_recvPending (s : State) (o : Op) : (s.openStream o).recvPending = s.recvPending := rfl
@[simp] theorem openStream_fault (s : State) (o : Op) : (s.openStream o).fault = s.fault := rfl
@[simp] theorem openStream_csPend (s : State) (o : Op) : (s.openStream o).csPend = s.csPend := rfl
@[simp] theorem openStream_bytePend (s : State) (o : Op) : (s.openStream o).bytePend = s.bytePend := rfl
@[simp] theorem openStream_awdPend (s : State) (o : Op) : (s.openStream o).awdPend = s.awdPend := rfl
@[simp] theorem openStream_ovrPend (s : State) (o : Op) : (s.openStream o).ovrPend = s.ovrPend := rfl
@[simp] theorem openStream_sa (s : State) (o : Op) : (s.openStream o).sa = s.sa := rfl
@[simp] theorem openStream_seqIdx (s : State) (o : Op) : (s.openStream o).seqIdx = s.seqIdx := rfl
@[simp] theorem openStream_samplerRun (s : State) (o : Op) : (s.openStream o).samplerRun = s.samplerRun := rfl
@[simp] theorem openStream_cfg (s : State) (o : Op) : (s.openStream o).cfg = s.cfg := rfl
@[simp] theorem openStream_env (s : State) (o : Op) : (s.openStream o).env = s.env := rfl
@[simp] theorem openStream_inputs (s : State) (o : Op) : (s.openStream o).inputs = s.inputs := rfl
@[simp] theorem openStream_trace (s : State) (o : Op) : (s.openStream o).trace = s.trace := rfl
@[simp] theorem openStream_misoBits (s : State) (o : Op) : (s.openStream o).misoBits = s.misoBits := rfl

/-! ### exchange -/

@[simp] theorem exchange_phase (s : State) (m sl : Byte) : (s.exchange m sl).phase = s.phase := rfl
@[simp] theorem exchange_op (s : State) (m sl : Byte) : (s.exchange m sl).op = s.op := rfl
@[simp] theorem exchange_cursor (s : State) (m sl : Byte) : (s.exchange m sl).cursor = s.cursor := rfl
@[simp] theorem exchange_ahi (s : State) (m sl : Byte) : (s.exchange m sl).ahi = s.ahi := rfl
@[simp] theorem exchange_rxdata (s : State) (m sl : Byte) : (s.exchange m sl).rxdata = m := rfl
@[simp] theorem exchange_txdata (s : State) (m sl : Byte) : (s.exchange m sl).txdata = s.txdata := rfl
@[simp] theorem exchange_shift (s : State) (m sl : Byte) : (s.exchange m sl).shift = m := rfl
@[simp] theorem exchange_bitcnt (s : State) (m sl : Byte) : (s.exchange m sl).bitcnt = 0#3 := rfl
@[simp] theorem exchange_selected (s : State) (m sl : Byte) : (s.exchange m sl).selected = s.selected := rfl
@[simp] theorem exchange_byteIe (s : State) (m sl : Byte) : (s.exchange m sl).byteIe = s.byteIe := rfl
@[simp] theorem exchange_sendPending (s : State) (m sl : Byte) : (s.exchange m sl).sendPending = s.sendPending := rfl
@[simp] theorem exchange_recvPending (s : State) (m sl : Byte) : (s.exchange m sl).recvPending = s.recvPending := rfl
@[simp] theorem exchange_fault (s : State) (m sl : Byte) : (s.exchange m sl).fault = s.fault := rfl
@[simp] theorem exchange_csPend (s : State) (m sl : Byte) : (s.exchange m sl).csPend = s.csPend := rfl
@[simp] theorem exchange_bytePend (s : State) (m sl : Byte) : (s.exchange m sl).bytePend = true := rfl
@[simp] theorem exchange_awdPend (s : State) (m sl : Byte) : (s.exchange m sl).awdPend = s.awdPend := rfl
@[simp] theorem exchange_ovrPend (s : State) (m sl : Byte) : (s.exchange m sl).ovrPend = s.ovrPend := rfl
@[simp] theorem exchange_sa (s : State) (m sl : Byte) : (s.exchange m sl).sa = s.sa := rfl
@[simp] theorem exchange_seqIdx (s : State) (m sl : Byte) : (s.exchange m sl).seqIdx = s.seqIdx := rfl
@[simp] theorem exchange_samplerRun (s : State) (m sl : Byte) : (s.exchange m sl).samplerRun = s.samplerRun := rfl
@[simp] theorem exchange_cfg (s : State) (m sl : Byte) : (s.exchange m sl).cfg = s.cfg := rfl
@[simp] theorem exchange_env (s : State) (m sl : Byte) : (s.exchange m sl).env = s.env := rfl
@[simp] theorem exchange_inputs (s : State) (m sl : Byte) : (s.exchange m sl).inputs = s.inputs := rfl
@[simp] theorem exchange_trace (s : State) (m sl : Byte) : (s.exchange m sl).trace = s.trace ++ [.exchange m sl] := rfl
@[simp] theorem exchange_misoBits (s : State) (m sl : Byte) : (s.exchange m sl).misoBits = sl := rfl

/-! ### setSendPending -/

@[simp] theorem setSendPending_phase (s : State) : (setSendPending s).phase = s.phase := rfl
@[simp] theorem setSendPending_op (s : State) : (setSendPending s).op = s.op := rfl
@[simp] theorem setSendPending_cursor (s : State) : (setSendPending s).cursor = s.cursor := rfl
@[simp] theorem setSendPending_ahi (s : State) : (setSendPending s).ahi = s.ahi := rfl
@[simp] theorem setSendPending_rxdata (s : State) : (setSendPending s).rxdata = s.rxdata := rfl
@[simp] theorem setSendPending_txdata (s : State) : (setSendPending s).txdata = s.txdata := rfl
@[simp] theorem setSendPending_shift (s : State) : (setSendPending s).shift = s.shift := rfl
@[simp] theorem setSendPending_bitcnt (s : State) : (setSendPending s).bitcnt = s.bitcnt := rfl
@[simp] theorem setSendPending_selected (s : State) : (setSendPending s).selected = s.selected := rfl
@[simp] theorem setSendPending_byteIe (s : State) : (setSendPending s).byteIe = s.byteIe := rfl
@[simp] theorem setSendPending_sendPending (s : State) : (setSendPending s).sendPending = true := rfl
@[simp] theorem setSendPending_recvPending (s : State) : (setSendPending s).recvPending = s.recvPending := rfl
@[simp] theorem setSendPending_fault (s : State) : (setSendPending s).fault = s.fault := rfl
@[simp] theorem setSendPending_csPend (s : State) : (setSendPending s).csPend = s.csPend := rfl
@[simp] theorem setSendPending_bytePend (s : State) : (setSendPending s).bytePend = s.bytePend := rfl
@[simp] theorem setSendPending_awdPend (s : State) : (setSendPending s).awdPend = s.awdPend := rfl
@[simp] theorem setSendPending_ovrPend (s : State) : (setSendPending s).ovrPend = s.ovrPend := rfl
@[simp] theorem setSendPending_sa (s : State) : (setSendPending s).sa = s.sa := rfl
@[simp] theorem setSendPending_seqIdx (s : State) : (setSendPending s).seqIdx = s.seqIdx := rfl
@[simp] theorem setSendPending_samplerRun (s : State) : (setSendPending s).samplerRun = s.samplerRun := rfl
@[simp] theorem setSendPending_cfg (s : State) : (setSendPending s).cfg = s.cfg := rfl
@[simp] theorem setSendPending_env (s : State) : (setSendPending s).env = s.env := rfl
@[simp] theorem setSendPending_inputs (s : State) : (setSendPending s).inputs = s.inputs := rfl
@[simp] theorem setSendPending_trace (s : State) : (setSendPending s).trace = s.trace := rfl
@[simp] theorem setSendPending_misoBits (s : State) : (setSendPending s).misoBits = s.misoBits := rfl

/-! ### clearSendPending -/

@[simp] theorem clearSendPending_phase (s : State) : (clearSendPending s).phase = s.phase := rfl
@[simp] theorem clearSendPending_op (s : State) : (clearSendPending s).op = s.op := rfl
@[simp] theorem clearSendPending_cursor (s : State) : (clearSendPending s).cursor = s.cursor := rfl
@[simp] theorem clearSendPending_ahi (s : State) : (clearSendPending s).ahi = s.ahi := rfl
@[simp] theorem clearSendPending_rxdata (s : State) : (clearSendPending s).rxdata = s.rxdata := rfl
@[simp] theorem clearSendPending_txdata (s : State) : (clearSendPending s).txdata = s.txdata := rfl
@[simp] theorem clearSendPending_shift (s : State) : (clearSendPending s).shift = s.shift := rfl
@[simp] theorem clearSendPending_bitcnt (s : State) : (clearSendPending s).bitcnt = s.bitcnt := rfl
@[simp] theorem clearSendPending_selected (s : State) : (clearSendPending s).selected = s.selected := rfl
@[simp] theorem clearSendPending_byteIe (s : State) : (clearSendPending s).byteIe = s.byteIe := rfl
@[simp] theorem clearSendPending_sendPending (s : State) : (clearSendPending s).sendPending = false := rfl
@[simp] theorem clearSendPending_recvPending (s : State) : (clearSendPending s).recvPending = s.recvPending := rfl
@[simp] theorem clearSendPending_fault (s : State) : (clearSendPending s).fault = s.fault := rfl
@[simp] theorem clearSendPending_csPend (s : State) : (clearSendPending s).csPend = s.csPend := rfl
@[simp] theorem clearSendPending_bytePend (s : State) : (clearSendPending s).bytePend = s.bytePend := rfl
@[simp] theorem clearSendPending_awdPend (s : State) : (clearSendPending s).awdPend = s.awdPend := rfl
@[simp] theorem clearSendPending_ovrPend (s : State) : (clearSendPending s).ovrPend = s.ovrPend := rfl
@[simp] theorem clearSendPending_sa (s : State) : (clearSendPending s).sa = s.sa := rfl
@[simp] theorem clearSendPending_seqIdx (s : State) : (clearSendPending s).seqIdx = s.seqIdx := rfl
@[simp] theorem clearSendPending_samplerRun (s : State) : (clearSendPending s).samplerRun = s.samplerRun := rfl
@[simp] theorem clearSendPending_cfg (s : State) : (clearSendPending s).cfg = s.cfg := rfl
@[simp] theorem clearSendPending_env (s : State) : (clearSendPending s).env = s.env := rfl
@[simp] theorem clearSendPending_inputs (s : State) : (clearSendPending s).inputs = s.inputs := rfl
@[simp] theorem clearSendPending_trace (s : State) : (clearSendPending s).trace = s.trace := rfl
@[simp] theorem clearSendPending_misoBits (s : State) : (clearSendPending s).misoBits = s.misoBits := rfl

/-! ### setRecvPending -/

@[simp] theorem setRecvPending_phase (s : State) : (setRecvPending s).phase = s.phase := rfl
@[simp] theorem setRecvPending_op (s : State) : (setRecvPending s).op = s.op := rfl
@[simp] theorem setRecvPending_cursor (s : State) : (setRecvPending s).cursor = s.cursor := rfl
@[simp] theorem setRecvPending_ahi (s : State) : (setRecvPending s).ahi = s.ahi := rfl
@[simp] theorem setRecvPending_rxdata (s : State) : (setRecvPending s).rxdata = s.rxdata := rfl
@[simp] theorem setRecvPending_txdata (s : State) : (setRecvPending s).txdata = s.txdata := rfl
@[simp] theorem setRecvPending_shift (s : State) : (setRecvPending s).shift = s.shift := rfl
@[simp] theorem setRecvPending_bitcnt (s : State) : (setRecvPending s).bitcnt = s.bitcnt := rfl
@[simp] theorem setRecvPending_selected (s : State) : (setRecvPending s).selected = s.selected := rfl
@[simp] theorem setRecvPending_byteIe (s : State) : (setRecvPending s).byteIe = s.byteIe := rfl
@[simp] theorem setRecvPending_sendPending (s : State) : (setRecvPending s).sendPending = s.sendPending := rfl
@[simp] theorem setRecvPending_recvPending (s : State) : (setRecvPending s).recvPending = true := rfl
@[simp] theorem setRecvPending_fault (s : State) : (setRecvPending s).fault = s.fault := rfl
@[simp] theorem setRecvPending_csPend (s : State) : (setRecvPending s).csPend = s.csPend := rfl
@[simp] theorem setRecvPending_bytePend (s : State) : (setRecvPending s).bytePend = s.bytePend := rfl
@[simp] theorem setRecvPending_awdPend (s : State) : (setRecvPending s).awdPend = s.awdPend := rfl
@[simp] theorem setRecvPending_ovrPend (s : State) : (setRecvPending s).ovrPend = s.ovrPend := rfl
@[simp] theorem setRecvPending_sa (s : State) : (setRecvPending s).sa = s.sa := rfl
@[simp] theorem setRecvPending_seqIdx (s : State) : (setRecvPending s).seqIdx = s.seqIdx := rfl
@[simp] theorem setRecvPending_samplerRun (s : State) : (setRecvPending s).samplerRun = s.samplerRun := rfl
@[simp] theorem setRecvPending_cfg (s : State) : (setRecvPending s).cfg = s.cfg := rfl
@[simp] theorem setRecvPending_env (s : State) : (setRecvPending s).env = s.env := rfl
@[simp] theorem setRecvPending_inputs (s : State) : (setRecvPending s).inputs = s.inputs := rfl
@[simp] theorem setRecvPending_trace (s : State) : (setRecvPending s).trace = s.trace := rfl
@[simp] theorem setRecvPending_misoBits (s : State) : (setRecvPending s).misoBits = s.misoBits := rfl

/-! ### clearRecvPending -/

@[simp] theorem clearRecvPending_phase (s : State) : (clearRecvPending s).phase = s.phase := rfl
@[simp] theorem clearRecvPending_op (s : State) : (clearRecvPending s).op = s.op := rfl
@[simp] theorem clearRecvPending_cursor (s : State) : (clearRecvPending s).cursor = s.cursor := rfl
@[simp] theorem clearRecvPending_ahi (s : State) : (clearRecvPending s).ahi = s.ahi := rfl
@[simp] theorem clearRecvPending_rxdata (s : State) : (clearRecvPending s).rxdata = s.rxdata := rfl
@[simp] theorem clearRecvPending_txdata (s : State) : (clearRecvPending s).txdata = s.txdata := rfl
@[simp] theorem clearRecvPending_shift (s : State) : (clearRecvPending s).shift = s.shift := rfl
@[simp] theorem clearRecvPending_bitcnt (s : State) : (clearRecvPending s).bitcnt = s.bitcnt := rfl
@[simp] theorem clearRecvPending_selected (s : State) : (clearRecvPending s).selected = s.selected := rfl
@[simp] theorem clearRecvPending_byteIe (s : State) : (clearRecvPending s).byteIe = s.byteIe := rfl
@[simp] theorem clearRecvPending_sendPending (s : State) : (clearRecvPending s).sendPending = s.sendPending := rfl
@[simp] theorem clearRecvPending_recvPending (s : State) : (clearRecvPending s).recvPending = false := rfl
@[simp] theorem clearRecvPending_fault (s : State) : (clearRecvPending s).fault = s.fault := rfl
@[simp] theorem clearRecvPending_csPend (s : State) : (clearRecvPending s).csPend = s.csPend := rfl
@[simp] theorem clearRecvPending_bytePend (s : State) : (clearRecvPending s).bytePend = s.bytePend := rfl
@[simp] theorem clearRecvPending_awdPend (s : State) : (clearRecvPending s).awdPend = s.awdPend := rfl
@[simp] theorem clearRecvPending_ovrPend (s : State) : (clearRecvPending s).ovrPend = s.ovrPend := rfl
@[simp] theorem clearRecvPending_sa (s : State) : (clearRecvPending s).sa = s.sa := rfl
@[simp] theorem clearRecvPending_seqIdx (s : State) : (clearRecvPending s).seqIdx = s.seqIdx := rfl
@[simp] theorem clearRecvPending_samplerRun (s : State) : (clearRecvPending s).samplerRun = s.samplerRun := rfl
@[simp] theorem clearRecvPending_cfg (s : State) : (clearRecvPending s).cfg = s.cfg := rfl
@[simp] theorem clearRecvPending_env (s : State) : (clearRecvPending s).env = s.env := rfl
@[simp] theorem clearRecvPending_inputs (s : State) : (clearRecvPending s).inputs = s.inputs := rfl
@[simp] theorem clearRecvPending_trace (s : State) : (clearRecvPending s).trace = s.trace := rfl
@[simp] theorem clearRecvPending_misoBits (s : State) : (clearRecvPending s).misoBits = s.misoBits := rfl

/-! ### setFault -/

@[simp] theorem setFault_phase (s : State) : (setFault s).phase = s.phase := rfl
@[simp] theorem setFault_op (s : State) : (setFault s).op = s.op := rfl
@[simp] theorem setFault_cursor (s : State) : (setFault s).cursor = s.cursor := rfl
@[simp] theorem setFault_ahi (s : State) : (setFault s).ahi = s.ahi := rfl
@[simp] theorem setFault_rxdata (s : State) : (setFault s).rxdata = s.rxdata := rfl
@[simp] theorem setFault_txdata (s : State) : (setFault s).txdata = s.txdata := rfl
@[simp] theorem setFault_shift (s : State) : (setFault s).shift = s.shift := rfl
@[simp] theorem setFault_bitcnt (s : State) : (setFault s).bitcnt = s.bitcnt := rfl
@[simp] theorem setFault_selected (s : State) : (setFault s).selected = s.selected := rfl
@[simp] theorem setFault_byteIe (s : State) : (setFault s).byteIe = s.byteIe := rfl
@[simp] theorem setFault_sendPending (s : State) : (setFault s).sendPending = s.sendPending := rfl
@[simp] theorem setFault_recvPending (s : State) : (setFault s).recvPending = s.recvPending := rfl
@[simp] theorem setFault_fault (s : State) : (setFault s).fault = true := rfl
@[simp] theorem setFault_csPend (s : State) : (setFault s).csPend = s.csPend := rfl
@[simp] theorem setFault_bytePend (s : State) : (setFault s).bytePend = s.bytePend := rfl
@[simp] theorem setFault_awdPend (s : State) : (setFault s).awdPend = s.awdPend := rfl
@[simp] theorem setFault_ovrPend (s : State) : (setFault s).ovrPend = s.ovrPend := rfl
@[simp] theorem setFault_sa (s : State) : (setFault s).sa = s.sa := rfl
@[simp] theorem setFault_seqIdx (s : State) : (setFault s).seqIdx = s.seqIdx := rfl
@[simp] theorem setFault_samplerRun (s : State) : (setFault s).samplerRun = s.samplerRun := rfl
@[simp] theorem setFault_cfg (s : State) : (setFault s).cfg = s.cfg := rfl
@[simp] theorem setFault_env (s : State) : (setFault s).env = s.env := rfl
@[simp] theorem setFault_inputs (s : State) : (setFault s).inputs = s.inputs := rfl
@[simp] theorem setFault_trace (s : State) : (setFault s).trace = s.trace := rfl
@[simp] theorem setFault_misoBits (s : State) : (setFault s).misoBits = s.misoBits := rfl

/-! ### callSendPrepare -/

@[simp] theorem callSendPrepare_phase (s : State) : (callSendPrepare s).phase = s.phase := rfl
@[simp] theorem callSendPrepare_op (s : State) : (callSendPrepare s).op = s.op := rfl
@[simp] theorem callSendPrepare_cursor (s : State) : (callSendPrepare s).cursor = s.cursor := rfl
@[simp] theorem callSendPrepare_ahi (s : State) : (callSendPrepare s).ahi = s.ahi := rfl
@[simp] theorem callSendPrepare_rxdata (s : State) : (callSendPrepare s).rxdata = s.rxdata := rfl
@[simp] theorem callSendPrepare_txdata (s : State) : (callSendPrepare s).txdata = s.txdata := rfl
@[simp] theorem callSendPrepare_shift (s : State) : (callSendPrepare s).shift = s.shift := rfl
@[simp] theorem callSendPrepare_bitcnt (s : State) : (callSendPrepare s).bitcnt = s.bitcnt := rfl
@[simp] theorem callSendPrepare_selected (s : State) : (callSendPrepare s).selected = s.selected := rfl
@[simp] theorem callSendPrepare_byteIe (s : State) : (callSendPrepare s).byteIe = s.byteIe := rfl
@[simp] theorem callSendPrepare_sendPending (s : State) : (callSendPrepare s).sendPending = s.sendPending := rfl
@[simp] theorem callSendPrepare_recvPending (s : State) : (callSendPrepare s).recvPending = s.recvPending := rfl
@[simp] theorem callSendPrepare_fault (s : State) : (callSendPrepare s).fault = s.fault := rfl
@[simp] theorem callSendPrepare_csPend (s : State) : (callSendPrepare s).csPend = s.csPend := rfl
@[simp] theorem callSendPrepare_bytePend (s : State) : (callSendPrepare s).bytePend = s.bytePend := rfl
@[simp] theorem callSendPrepare_awdPend (s : State) : (callSendPrepare s).awdPend = s.awdPend := rfl
@[simp] theorem callSendPrepare_ovrPend (s : State) : (callSendPrepare s).ovrPend = s.ovrPend := rfl
@[simp] theorem callSendPrepare_sa (s : State) : (callSendPrepare s).sa = s.sa := rfl
@[simp] theorem callSendPrepare_seqIdx (s : State) : (callSendPrepare s).seqIdx = s.seqIdx := rfl
@[simp] theorem callSendPrepare_samplerRun (s : State) : (callSendPrepare s).samplerRun = s.samplerRun := rfl
@[simp] theorem callSendPrepare_cfg (s : State) : (callSendPrepare s).cfg = s.cfg := rfl
@[simp] theorem callSendPrepare_env (s : State) : (callSendPrepare s).env = s.env := rfl
@[simp] theorem callSendPrepare_inputs (s : State) : (callSendPrepare s).inputs = s.inputs := rfl
@[simp] theorem callSendPrepare_trace (s : State) : (callSendPrepare s).trace = s.trace ++ [.call (.sendPrepare s.env.sendGrant)] := rfl
@[simp] theorem callSendPrepare_misoBits (s : State) : (callSendPrepare s).misoBits = s.misoBits := rfl

/-! ### callSendExecute -/

@[simp] theorem callSendExecute_phase (s : State) : (callSendExecute s).phase = s.phase := rfl
@[simp] theorem callSendExecute_op (s : State) : (callSendExecute s).op = s.op := rfl
@[simp] theorem callSendExecute_cursor (s : State) : (callSendExecute s).cursor = s.cursor := rfl
@[simp] theorem callSendExecute_ahi (s : State) : (callSendExecute s).ahi = s.ahi := rfl
@[simp] theorem callSendExecute_rxdata (s : State) : (callSendExecute s).rxdata = s.rxdata := rfl
@[simp] theorem callSendExecute_txdata (s : State) : (callSendExecute s).txdata = s.txdata := rfl
@[simp] theorem callSendExecute_shift (s : State) : (callSendExecute s).shift = s.shift := rfl
@[simp] theorem callSendExecute_bitcnt (s : State) : (callSendExecute s).bitcnt = s.bitcnt := rfl
@[simp] theorem callSendExecute_selected (s : State) : (callSendExecute s).selected = s.selected := rfl
@[simp] theorem callSendExecute_byteIe (s : State) : (callSendExecute s).byteIe = s.byteIe := rfl
@[simp] theorem callSendExecute_sendPending (s : State) : (callSendExecute s).sendPending = s.sendPending := rfl
@[simp] theorem callSendExecute_recvPending (s : State) : (callSendExecute s).recvPending = s.recvPending := rfl
@[simp] theorem callSendExecute_fault (s : State) : (callSendExecute s).fault = s.fault := rfl
@[simp] theorem callSendExecute_csPend (s : State) : (callSendExecute s).csPend = s.csPend := rfl
@[simp] theorem callSendExecute_bytePend (s : State) : (callSendExecute s).bytePend = s.bytePend := rfl
@[simp] theorem callSendExecute_awdPend (s : State) : (callSendExecute s).awdPend = s.awdPend := rfl
@[simp] theorem callSendExecute_ovrPend (s : State) : (callSendExecute s).ovrPend = s.ovrPend := rfl
@[simp] theorem callSendExecute_sa (s : State) : (callSendExecute s).sa = s.sa := rfl
@[simp] theorem callSendExecute_seqIdx (s : State) : (callSendExecute s).seqIdx = s.seqIdx := rfl
@[simp] theorem callSendExecute_samplerRun (s : State) : (callSendExecute s).samplerRun = s.samplerRun := rfl
@[simp] theorem callSendExecute_cfg (s : State) : (callSendExecute s).cfg = s.cfg := rfl
@[simp] theorem callSendExecute_env (s : State) : (callSendExecute s).env = { s.env with sendCommits := s.env.sendCommits + 1 } := rfl
@[simp] theorem callSendExecute_inputs (s : State) : (callSendExecute s).inputs = s.inputs := rfl
@[simp] theorem callSendExecute_trace (s : State) : (callSendExecute s).trace = s.trace ++ [.call .sendExecute] := rfl
@[simp] theorem callSendExecute_misoBits (s : State) : (callSendExecute s).misoBits = s.misoBits := rfl

/-! ### callRecvFront -/

@[simp] theorem callRecvFront_phase (s : State) : (callRecvFront s).phase = s.phase := rfl
@[simp] theorem callRecvFront_op (s : State) : (callRecvFront s).op = s.op := rfl
@[simp] theorem callRecvFront_cursor (s : State) : (callRecvFront s).cursor = s.cursor := rfl
@[simp] theorem callRecvFront_ahi (s : State) : (callRecvFront s).ahi = s.ahi := rfl
@[simp] theorem callRecvFront_rxdata (s : State) : (callRecvFront s).rxdata = s.rxdata := rfl
@[simp] theorem callRecvFront_txdata (s : State) : (callRecvFront s).txdata = s.txdata := rfl
@[simp] theorem callRecvFront_shift (s : State) : (callRecvFront s).shift = s.shift := rfl
@[simp] theorem callRecvFront_bitcnt (s : State) : (callRecvFront s).bitcnt = s.bitcnt := rfl
@[simp] theorem callRecvFront_selected (s : State) : (callRecvFront s).selected = s.selected := rfl
@[simp] theorem callRecvFront_byteIe (s : State) : (callRecvFront s).byteIe = s.byteIe := rfl
@[simp] theorem callRecvFront_sendPending (s : State) : (callRecvFront s).sendPending = s.sendPending := rfl
@[simp] theorem callRecvFront_recvPending (s : State) : (callRecvFront s).recvPending = s.recvPending := rfl
@[simp] theorem callRecvFront_fault (s : State) : (callRecvFront s).fault = s.fault := rfl
@[simp] theorem callRecvFront_csPend (s : State) : (callRecvFront s).csPend = s.csPend := rfl
@[simp] theorem callRecvFront_bytePend (s : State) : (callRecvFront s).bytePend = s.bytePend := rfl
@[simp] theorem callRecvFront_awdPend (s : State) : (callRecvFront s).awdPend = s.awdPend := rfl
@[simp] theorem callRecvFront_ovrPend (s : State) : (callRecvFront s).ovrPend = s.ovrPend := rfl
@[simp] theorem callRecvFront_sa (s : State) : (callRecvFront s).sa = s.sa := rfl
@[simp] theorem callRecvFront_seqIdx (s : State) : (callRecvFront s).seqIdx = s.seqIdx := rfl
@[simp] theorem callRecvFront_samplerRun (s : State) : (callRecvFront s).samplerRun = s.samplerRun := rfl
@[simp] theorem callRecvFront_cfg (s : State) : (callRecvFront s).cfg = s.cfg := rfl
@[simp] theorem callRecvFront_env (s : State) : (callRecvFront s).env = s.env := rfl
@[simp] theorem callRecvFront_inputs (s : State) : (callRecvFront s).inputs = s.inputs := rfl
@[simp] theorem callRecvFront_trace (s : State) : (callRecvFront s).trace = s.trace ++ [.call (.recvFront s.env.recvGrant)] := rfl
@[simp] theorem callRecvFront_misoBits (s : State) : (callRecvFront s).misoBits = s.misoBits := rfl

/-! ### callRecvPopFront -/

@[simp] theorem callRecvPopFront_phase (s : State) : (callRecvPopFront s).phase = s.phase := rfl
@[simp] theorem callRecvPopFront_op (s : State) : (callRecvPopFront s).op = s.op := rfl
@[simp] theorem callRecvPopFront_cursor (s : State) : (callRecvPopFront s).cursor = s.cursor := rfl
@[simp] theorem callRecvPopFront_ahi (s : State) : (callRecvPopFront s).ahi = s.ahi := rfl
@[simp] theorem callRecvPopFront_rxdata (s : State) : (callRecvPopFront s).rxdata = s.rxdata := rfl
@[simp] theorem callRecvPopFront_txdata (s : State) : (callRecvPopFront s).txdata = s.txdata := rfl
@[simp] theorem callRecvPopFront_shift (s : State) : (callRecvPopFront s).shift = s.shift := rfl
@[simp] theorem callRecvPopFront_bitcnt (s : State) : (callRecvPopFront s).bitcnt = s.bitcnt := rfl
@[simp] theorem callRecvPopFront_selected (s : State) : (callRecvPopFront s).selected = s.selected := rfl
@[simp] theorem callRecvPopFront_byteIe (s : State) : (callRecvPopFront s).byteIe = s.byteIe := rfl
@[simp] theorem callRecvPopFront_sendPending (s : State) : (callRecvPopFront s).sendPending = s.sendPending := rfl
@[simp] theorem callRecvPopFront_recvPending (s : State) : (callRecvPopFront s).recvPending = s.recvPending := rfl
@[simp] theorem callRecvPopFront_fault (s : State) : (callRecvPopFront s).fault = s.fault := rfl
@[simp] theorem callRecvPopFront_csPend (s : State) : (callRecvPopFront s).csPend = s.csPend := rfl
@[simp] theorem callRecvPopFront_bytePend (s : State) : (callRecvPopFront s).bytePend = s.bytePend := rfl
@[simp] theorem callRecvPopFront_awdPend (s : State) : (callRecvPopFront s).awdPend = s.awdPend := rfl
@[simp] theorem callRecvPopFront_ovrPend (s : State) : (callRecvPopFront s).ovrPend = s.ovrPend := rfl
@[simp] theorem callRecvPopFront_sa (s : State) : (callRecvPopFront s).sa = s.sa := rfl
@[simp] theorem callRecvPopFront_seqIdx (s : State) : (callRecvPopFront s).seqIdx = s.seqIdx := rfl
@[simp] theorem callRecvPopFront_samplerRun (s : State) : (callRecvPopFront s).samplerRun = s.samplerRun := rfl
@[simp] theorem callRecvPopFront_cfg (s : State) : (callRecvPopFront s).cfg = s.cfg := rfl
@[simp] theorem callRecvPopFront_env (s : State) : (callRecvPopFront s).env = { s.env with recvPops := s.env.recvPops + 1 } := rfl
@[simp] theorem callRecvPopFront_inputs (s : State) : (callRecvPopFront s).inputs = s.inputs := rfl
@[simp] theorem callRecvPopFront_trace (s : State) : (callRecvPopFront s).trace = s.trace ++ [.call .recvPopFront] := rfl
@[simp] theorem callRecvPopFront_misoBits (s : State) : (callRecvPopFront s).misoBits = s.misoBits := rfl

/-! ### callFunctionEnable -/

@[simp] theorem callFunctionEnable_phase (s : State) (id : Nibble) : (callFunctionEnable id s).phase = s.phase := rfl
@[simp] theorem callFunctionEnable_op (s : State) (id : Nibble) : (callFunctionEnable id s).op = s.op := rfl
@[simp] theorem callFunctionEnable_cursor (s : State) (id : Nibble) : (callFunctionEnable id s).cursor = s.cursor := rfl
@[simp] theorem callFunctionEnable_ahi (s : State) (id : Nibble) : (callFunctionEnable id s).ahi = s.ahi := rfl
@[simp] theorem callFunctionEnable_rxdata (s : State) (id : Nibble) : (callFunctionEnable id s).rxdata = s.rxdata := rfl
@[simp] theorem callFunctionEnable_txdata (s : State) (id : Nibble) : (callFunctionEnable id s).txdata = s.txdata := rfl
@[simp] theorem callFunctionEnable_shift (s : State) (id : Nibble) : (callFunctionEnable id s).shift = s.shift := rfl
@[simp] theorem callFunctionEnable_bitcnt (s : State) (id : Nibble) : (callFunctionEnable id s).bitcnt = s.bitcnt := rfl
@[simp] theorem callFunctionEnable_selected (s : State) (id : Nibble) : (callFunctionEnable id s).selected = s.selected := rfl
@[simp] theorem callFunctionEnable_byteIe (s : State) (id : Nibble) : (callFunctionEnable id s).byteIe = s.byteIe := rfl
@[simp] theorem callFunctionEnable_sendPending (s : State) (id : Nibble) : (callFunctionEnable id s).sendPending = s.sendPending := rfl
@[simp] theorem callFunctionEnable_recvPending (s : State) (id : Nibble) : (callFunctionEnable id s).recvPending = s.recvPending := rfl
@[simp] theorem callFunctionEnable_fault (s : State) (id : Nibble) : (callFunctionEnable id s).fault = s.fault := rfl
@[simp] theorem callFunctionEnable_csPend (s : State) (id : Nibble) : (callFunctionEnable id s).csPend = s.csPend := rfl
@[simp] theorem callFunctionEnable_bytePend (s : State) (id : Nibble) : (callFunctionEnable id s).bytePend = s.bytePend := rfl
@[simp] theorem callFunctionEnable_awdPend (s : State) (id : Nibble) : (callFunctionEnable id s).awdPend = s.awdPend := rfl
@[simp] theorem callFunctionEnable_ovrPend (s : State) (id : Nibble) : (callFunctionEnable id s).ovrPend = s.ovrPend := rfl
@[simp] theorem callFunctionEnable_sa (s : State) (id : Nibble) : (callFunctionEnable id s).sa = s.sa := rfl
@[simp] theorem callFunctionEnable_seqIdx (s : State) (id : Nibble) : (callFunctionEnable id s).seqIdx = s.seqIdx := rfl
@[simp] theorem callFunctionEnable_samplerRun (s : State) (id : Nibble) : (callFunctionEnable id s).samplerRun = s.samplerRun := rfl
@[simp] theorem callFunctionEnable_cfg (s : State) (id : Nibble) : (callFunctionEnable id s).cfg = s.cfg := rfl
@[simp] theorem callFunctionEnable_env (s : State) (id : Nibble) : (callFunctionEnable id s).env = { s.env with funcEn := s.env.funcEn ||| functionBit id } := rfl
@[simp] theorem callFunctionEnable_inputs (s : State) (id : Nibble) : (callFunctionEnable id s).inputs = s.inputs := rfl
@[simp] theorem callFunctionEnable_trace (s : State) (id : Nibble) : (callFunctionEnable id s).trace = s.trace ++ [.call (.functionEnable id)] := rfl
@[simp] theorem callFunctionEnable_misoBits (s : State) (id : Nibble) : (callFunctionEnable id s).misoBits = s.misoBits := rfl

/-! ### callFunctionDisable -/

@[simp] theorem callFunctionDisable_phase (s : State) (id : Nibble) : (callFunctionDisable id s).phase = s.phase := rfl
@[simp] theorem callFunctionDisable_op (s : State) (id : Nibble) : (callFunctionDisable id s).op = s.op := rfl
@[simp] theorem callFunctionDisable_cursor (s : State) (id : Nibble) : (callFunctionDisable id s).cursor = s.cursor := rfl
@[simp] theorem callFunctionDisable_ahi (s : State) (id : Nibble) : (callFunctionDisable id s).ahi = s.ahi := rfl
@[simp] theorem callFunctionDisable_rxdata (s : State) (id : Nibble) : (callFunctionDisable id s).rxdata = s.rxdata := rfl
@[simp] theorem callFunctionDisable_txdata (s : State) (id : Nibble) : (callFunctionDisable id s).txdata = s.txdata := rfl
@[simp] theorem callFunctionDisable_shift (s : State) (id : Nibble) : (callFunctionDisable id s).shift = s.shift := rfl
@[simp] theorem callFunctionDisable_bitcnt (s : State) (id : Nibble) : (callFunctionDisable id s).bitcnt = s.bitcnt := rfl
@[simp] theorem callFunctionDisable_selected (s : State) (id : Nibble) : (callFunctionDisable id s).selected = s.selected := rfl
@[simp] theorem callFunctionDisable_byteIe (s : State) (id : Nibble) : (callFunctionDisable id s).byteIe = s.byteIe := rfl
@[simp] theorem callFunctionDisable_sendPending (s : State) (id : Nibble) : (callFunctionDisable id s).sendPending = s.sendPending := rfl
@[simp] theorem callFunctionDisable_recvPending (s : State) (id : Nibble) : (callFunctionDisable id s).recvPending = s.recvPending := rfl
@[simp] theorem callFunctionDisable_fault (s : State) (id : Nibble) : (callFunctionDisable id s).fault = s.fault := rfl
@[simp] theorem callFunctionDisable_csPend (s : State) (id : Nibble) : (callFunctionDisable id s).csPend = s.csPend := rfl
@[simp] theorem callFunctionDisable_bytePend (s : State) (id : Nibble) : (callFunctionDisable id s).bytePend = s.bytePend := rfl
@[simp] theorem callFunctionDisable_awdPend (s : State) (id : Nibble) : (callFunctionDisable id s).awdPend = s.awdPend := rfl
@[simp] theorem callFunctionDisable_ovrPend (s : State) (id : Nibble) : (callFunctionDisable id s).ovrPend = s.ovrPend := rfl
@[simp] theorem callFunctionDisable_sa (s : State) (id : Nibble) : (callFunctionDisable id s).sa = s.sa := rfl
@[simp] theorem callFunctionDisable_seqIdx (s : State) (id : Nibble) : (callFunctionDisable id s).seqIdx = s.seqIdx := rfl
@[simp] theorem callFunctionDisable_samplerRun (s : State) (id : Nibble) : (callFunctionDisable id s).samplerRun = s.samplerRun := rfl
@[simp] theorem callFunctionDisable_cfg (s : State) (id : Nibble) : (callFunctionDisable id s).cfg = s.cfg := rfl
@[simp] theorem callFunctionDisable_env (s : State) (id : Nibble) : (callFunctionDisable id s).env = { s.env with funcEn := s.env.funcEn &&& ~~~functionBit id } := rfl
@[simp] theorem callFunctionDisable_inputs (s : State) (id : Nibble) : (callFunctionDisable id s).inputs = s.inputs := rfl
@[simp] theorem callFunctionDisable_trace (s : State) (id : Nibble) : (callFunctionDisable id s).trace = s.trace ++ [.call (.functionDisable id)] := rfl
@[simp] theorem callFunctionDisable_misoBits (s : State) (id : Nibble) : (callFunctionDisable id s).misoBits = s.misoBits := rfl

/-! ### callPowerFault -/

@[simp] theorem callPowerFault_phase (s : State) : (callPowerFault s).phase = s.phase := rfl
@[simp] theorem callPowerFault_op (s : State) : (callPowerFault s).op = s.op := rfl
@[simp] theorem callPowerFault_cursor (s : State) : (callPowerFault s).cursor = s.cursor := rfl
@[simp] theorem callPowerFault_ahi (s : State) : (callPowerFault s).ahi = s.ahi := rfl
@[simp] theorem callPowerFault_rxdata (s : State) : (callPowerFault s).rxdata = s.rxdata := rfl
@[simp] theorem callPowerFault_txdata (s : State) : (callPowerFault s).txdata = s.txdata := rfl
@[simp] theorem callPowerFault_shift (s : State) : (callPowerFault s).shift = s.shift := rfl
@[simp] theorem callPowerFault_bitcnt (s : State) : (callPowerFault s).bitcnt = s.bitcnt := rfl
@[simp] theorem callPowerFault_selected (s : State) : (callPowerFault s).selected = s.selected := rfl
@[simp] theorem callPowerFault_byteIe (s : State) : (callPowerFault s).byteIe = s.byteIe := rfl
@[simp] theorem callPowerFault_sendPending (s : State) : (callPowerFault s).sendPending = s.sendPending := rfl
@[simp] theorem callPowerFault_recvPending (s : State) : (callPowerFault s).recvPending = s.recvPending := rfl
@[simp] theorem callPowerFault_fault (s : State) : (callPowerFault s).fault = s.fault := rfl
@[simp] theorem callPowerFault_csPend (s : State) : (callPowerFault s).csPend = s.csPend := rfl
@[simp] theorem callPowerFault_bytePend (s : State) : (callPowerFault s).bytePend = s.bytePend := rfl
@[simp] theorem callPowerFault_awdPend (s : State) : (callPowerFault s).awdPend = s.awdPend := rfl
@[simp] theorem callPowerFault_ovrPend (s : State) : (callPowerFault s).ovrPend = s.ovrPend := rfl
@[simp] theorem callPowerFault_sa (s : State) : (callPowerFault s).sa = s.sa := rfl
@[simp] theorem callPowerFault_seqIdx (s : State) : (callPowerFault s).seqIdx = s.seqIdx := rfl
@[simp] theorem callPowerFault_samplerRun (s : State) : (callPowerFault s).samplerRun = s.samplerRun := rfl
@[simp] theorem callPowerFault_cfg (s : State) : (callPowerFault s).cfg = s.cfg := rfl
@[simp] theorem callPowerFault_env (s : State) : (callPowerFault s).env = { s.env with pfCount := s.env.pfCount + 1 } := rfl
@[simp] theorem callPowerFault_inputs (s : State) : (callPowerFault s).inputs = s.inputs := rfl
@[simp] theorem callPowerFault_trace (s : State) : (callPowerFault s).trace = s.trace ++ [.call .powerFault] := rfl
@[simp] theorem callPowerFault_misoBits (s : State) : (callPowerFault s).misoBits = s.misoBits := rfl

/-! ### raiseSystemReset -/

@[simp] theorem raiseSystemReset_phase (s : State) : (raiseSystemReset s).phase = .halt := rfl
@[simp] theorem raiseSystemReset_op (s : State) : (raiseSystemReset s).op = s.op := rfl
@[simp] theorem raiseSystemReset_cursor (s : State) : (raiseSystemReset s).cursor = s.cursor := rfl
@[simp] theorem raiseSystemReset_ahi (s : State) : (raiseSystemReset s).ahi = s.ahi := rfl
@[simp] theorem raiseSystemReset_rxdata (s : State) : (raiseSystemReset s).rxdata = s.rxdata := rfl
@[simp] theorem raiseSystemReset_txdata (s : State) : (raiseSystemReset s).txdata = s.txdata := rfl
@[simp] theorem raiseSystemReset_shift (s : State) : (raiseSystemReset s).shift = s.shift := rfl
@[simp] theorem raiseSystemReset_bitcnt (s : State) : (raiseSystemReset s).bitcnt = s.bitcnt := rfl
@[simp] theorem raiseSystemReset_selected (s : State) : (raiseSystemReset s).selected = s.selected := rfl
@[simp] theorem raiseSystemReset_byteIe (s : State) : (raiseSystemReset s).byteIe = s.byteIe := rfl
@[simp] theorem raiseSystemReset_sendPending (s : State) : (raiseSystemReset s).sendPending = s.sendPending := rfl
@[simp] theorem raiseSystemReset_recvPending (s : State) : (raiseSystemReset s).recvPending = s.recvPending := rfl
@[simp] theorem raiseSystemReset_fault (s : State) : (raiseSystemReset s).fault = s.fault := rfl
@[simp] theorem raiseSystemReset_csPend (s : State) : (raiseSystemReset s).csPend = s.csPend := rfl
@[simp] theorem raiseSystemReset_bytePend (s : State) : (raiseSystemReset s).bytePend = s.bytePend := rfl
@[simp] theorem raiseSystemReset_awdPend (s : State) : (raiseSystemReset s).awdPend = s.awdPend := rfl
@[simp] theorem raiseSystemReset_ovrPend (s : State) : (raiseSystemReset s).ovrPend = s.ovrPend := rfl
@[simp] theorem raiseSystemReset_sa (s : State) : (raiseSystemReset s).sa = s.sa := rfl
@[simp] theorem raiseSystemReset_seqIdx (s : State) : (raiseSystemReset s).seqIdx = s.seqIdx := rfl
@[simp] theorem raiseSystemReset_samplerRun (s : State) : (raiseSystemReset s).samplerRun = s.samplerRun := rfl
@[simp] theorem raiseSystemReset_cfg (s : State) : (raiseSystemReset s).cfg = s.cfg := rfl
@[simp] theorem raiseSystemReset_env (s : State) : (raiseSystemReset s).env = { s.env with resetReq := true } := rfl
@[simp] theorem raiseSystemReset_inputs (s : State) : (raiseSystemReset s).inputs = s.inputs := rfl
@[simp] theorem raiseSystemReset_trace (s : State) : (raiseSystemReset s).trace = s.trace ++ [.call .systemReset] := rfl
@[simp] theorem raiseSystemReset_misoBits (s : State) : (raiseSystemReset s).misoBits = s.misoBits := rfl

/-! ### memRead -/

@[simp] theorem memRead_phase (s : State) (a : Addr) : (memRead a s).2.phase = s.phase := rfl
@[simp] theorem memRead_op (s : State) (a : Addr) : (memRead a s).2.op = s.op := rfl
@[simp] theorem memRead_cursor (s : State) (a : Addr) : (memRead a s).2.cursor = s.cursor := rfl
@[simp] theorem memRead_ahi (s : State) (a : Addr) : (memRead a s).2.ahi = s.ahi := rfl
@[simp] theorem memRead_rxdata (s : State) (a : Addr) : (memRead a s).2.rxdata = s.rxdata := rfl
@[simp] theorem memRead_txdata (s : State) (a : Addr) : (memRead a s).2.txdata = s.txdata := rfl
@[simp] theorem memRead_shift (s : State) (a : Addr) : (memRead a s).2.shift = s.shift := rfl
@[simp] theorem memRead_bitcnt (s : State) (a : Addr) : (memRead a s).2.bitcnt = s.bitcnt := rfl
@[simp] theorem memRead_selected (s : State) (a : Addr) : (memRead a s).2.selected = s.selected := rfl
@[simp] theorem memRead_byteIe (s : State) (a : Addr) : (memRead a s).2.byteIe = s.byteIe := rfl
@[simp] theorem memRead_sendPending (s : State) (a : Addr) : (memRead a s).2.sendPending = s.sendPending := rfl
@[simp] theorem memRead_recvPending (s : State) (a : Addr) : (memRead a s).2.recvPending = s.recvPending := rfl
@[simp] theorem memRead_fault (s : State) (a : Addr) : (memRead a s).2.fault = s.fault := rfl
@[simp] theorem memRead_csPend (s : State) (a : Addr) : (memRead a s).2.csPend = s.csPend := rfl
@[simp] theorem memRead_bytePend (s : State) (a : Addr) : (memRead a s).2.bytePend = s.bytePend := rfl
@[simp] theorem memRead_awdPend (s : State) (a : Addr) : (memRead a s).2.awdPend = s.awdPend := rfl
@[simp] theorem memRead_ovrPend (s : State) (a : Addr) : (memRead a s).2.ovrPend = s.ovrPend := rfl
@[simp] theorem memRead_sa (s : State) (a : Addr) : (memRead a s).2.sa = s.sa := rfl
@[simp] theorem memRead_seqIdx (s : State) (a : Addr) : (memRead a s).2.seqIdx = s.seqIdx := rfl
@[simp] theorem memRead_samplerRun (s : State) (a : Addr) : (memRead a s).2.samplerRun = s.samplerRun := rfl
@[simp] theorem memRead_cfg (s : State) (a : Addr) : (memRead a s).2.cfg = s.cfg := rfl
@[simp] theorem memRead_env (s : State) (a : Addr) : (memRead a s).2.env = { s.env with draws := s.env.draws + (memReadCalls s a).length } := rfl
@[simp] theorem memRead_inputs (s : State) (a : Addr) : (memRead a s).2.inputs = s.inputs := rfl
@[simp] theorem memRead_trace (s : State) (a : Addr) : (memRead a s).2.trace = s.trace ++ memReadCalls s a := rfl
@[simp] theorem memRead_misoBits (s : State) (a : Addr) : (memRead a s).2.misoBits = s.misoBits := rfl

/-! ### memWrite -/

@[simp] theorem memWrite_phase (s : State) (a : Addr) (v : Byte) : (memWrite a v s).phase = s.phase := rfl
@[simp] theorem memWrite_op (s : State) (a : Addr) (v : Byte) : (memWrite a v s).op = s.op := rfl
@[simp] theorem memWrite_cursor (s : State) (a : Addr) (v : Byte) : (memWrite a v s).cursor = s.cursor := rfl
@[simp] theorem memWrite_ahi (s : State) (a : Addr) (v : Byte) : (memWrite a v s).ahi = s.ahi := rfl
@[simp] theorem memWrite_rxdata (s : State) (a : Addr) (v : Byte) : (memWrite a v s).rxdata = s.rxdata := rfl
@[simp] theorem memWrite_txdata (s : State) (a : Addr) (v : Byte) : (memWrite a v s).txdata = s.txdata := rfl
@[simp] theorem memWrite_shift (s : State) (a : Addr) (v : Byte) : (memWrite a v s).shift = s.shift := rfl
@[simp] theorem memWrite_bitcnt (s : State) (a : Addr) (v : Byte) : (memWrite a v s).bitcnt = s.bitcnt := rfl
@[simp] theorem memWrite_selected (s : State) (a : Addr) (v : Byte) : (memWrite a v s).selected = s.selected := rfl
@[simp] theorem memWrite_byteIe (s : State) (a : Addr) (v : Byte) : (memWrite a v s).byteIe = s.byteIe := rfl
@[simp] theorem memWrite_sendPending (s : State) (a : Addr) (v : Byte) : (memWrite a v s).sendPending = s.sendPending := rfl
@[simp] theorem memWrite_recvPending (s : State) (a : Addr) (v : Byte) : (memWrite a v s).recvPending = s.recvPending := rfl
@[simp] theorem memWrite_fault (s : State) (a : Addr) (v : Byte) : (memWrite a v s).fault = s.fault := rfl
@[simp] theorem memWrite_csPend (s : State) (a : Addr) (v : Byte) : (memWrite a v s).csPend = s.csPend := rfl
@[simp] theorem memWrite_bytePend (s : State) (a : Addr) (v : Byte) : (memWrite a v s).bytePend = s.bytePend := rfl
@[simp] theorem memWrite_awdPend (s : State) (a : Addr) (v : Byte) : (memWrite a v s).awdPend = s.awdPend := rfl
@[simp] theorem memWrite_ovrPend (s : State) (a : Addr) (v : Byte) : (memWrite a v s).ovrPend = s.ovrPend := rfl
@[simp] theorem memWrite_sa (s : State) (a : Addr) (v : Byte) : (memWrite a v s).sa = s.sa := rfl
@[simp] theorem memWrite_seqIdx (s : State) (a : Addr) (v : Byte) : (memWrite a v s).seqIdx = s.seqIdx := rfl
@[simp] theorem memWrite_samplerRun (s : State) (a : Addr) (v : Byte) : (memWrite a v s).samplerRun = s.samplerRun := rfl
@[simp] theorem memWrite_cfg (s : State) (a : Addr) (v : Byte) : (memWrite a v s).cfg = s.cfg := rfl
@[simp] theorem memWrite_env (s : State) (a : Addr) (v : Byte) : (memWrite a v s).env = { s.env with mem := if inOverlay s a then s.env.mem else s.env.mem.write s.env.blank a.toNat v } := rfl
@[simp] theorem memWrite_inputs (s : State) (a : Addr) (v : Byte) : (memWrite a v s).inputs = s.inputs := rfl
@[simp] theorem memWrite_trace (s : State) (a : Addr) (v : Byte) : (memWrite a v s).trace = s.trace ++ (if inOverlay s a then [] else [.call (.registerWrite a v)]) := rfl
@[simp] theorem memWrite_misoBits (s : State) (a : Addr) (v : Byte) : (memWrite a v s).misoBits = s.misoBits := rfl

/-! ### curInc -/

@[simp] theorem curInc_phase (s : State) : (curInc s).phase = s.phase := rfl
@[simp] theorem curInc_op (s : State) : (curInc s).op = s.op := rfl
@[simp] theorem curInc_cursor (s : State) : (curInc s).cursor = if s.cursor.valid then { valid := true, addr := nextAddr s.cursor.addr } else s.cursor := rfl
@[simp] theorem curInc_ahi (s : State) : (curInc s).ahi = s.ahi := rfl
@[simp] theorem curInc_rxdata (s : State) : (curInc s).rxdata = s.rxdata := rfl
@[simp] theorem curInc_txdata (s : State) : (curInc s).txdata = s.txdata := rfl
@[simp] theorem curInc_shift (s : State) : (curInc s).shift = s.shift := rfl
@[simp] theorem curInc_bitcnt (s : State) : (curInc s).bitcnt = s.bitcnt := rfl
@[simp] theorem curInc_selected (s : State) : (curInc s).selected = s.selected := rfl
@[simp] theorem curInc_byteIe (s : State) : (curInc s).byteIe = s.byteIe := rfl
@[simp] theorem curInc_sendPending (s : State) : (curInc s).sendPending = s.sendPending := rfl
@[simp] theorem curInc_recvPending (s : State) : (curInc s).recvPending = s.recvPending := rfl
@[simp] theorem curInc_fault (s : State) : (curInc s).fault = s.fault := rfl
@[simp] theorem curInc_csPend (s : State) : (curInc s).csPend = s.csPend := rfl
@[simp] theorem curInc_bytePend (s : State) : (curInc s).bytePend = s.bytePend := rfl
@[simp] theorem curInc_awdPend (s : State) : (curInc s).awdPend = s.awdPend := rfl
@[simp] theorem curInc_ovrPend (s : State) : (curInc s).ovrPend = s.ovrPend := rfl
@[simp] theorem curInc_sa (s : State) : (curInc s).sa = s.sa := rfl
@[simp] theorem curInc_seqIdx (s : State) : (curInc s).seqIdx = s.seqIdx := rfl
@[simp] theorem curInc_samplerRun (s : State) : (curInc s).samplerRun = s.samplerRun := rfl
@[simp] theorem curInc_cfg (s : State) : (curInc s).cfg = s.cfg := rfl
@[simp] theorem curInc_env (s : State) : (curInc s).env = s.env := rfl
@[simp] theorem curInc_inputs (s : State) : (curInc s).inputs = s.inputs := rfl
@[simp] theorem curInc_trace (s : State) : (curInc s).trace = s.trace := rfl
@[simp] theorem curInc_misoBits (s : State) : (curInc s).misoBits = s.misoBits := rfl

/-! ### takeSnapshot -/

@[simp] theorem takeSnapshot_phase (s : State) : (takeSnapshot s).phase = s.phase := rfl
@[simp] theorem takeSnapshot_op (s : State) : (takeSnapshot s).op = s.op := rfl
@[simp] theorem takeSnapshot_cursor (s : State) : (takeSnapshot s).cursor = s.cursor := rfl
@[simp] theorem takeSnapshot_ahi (s : State) : (takeSnapshot s).ahi = s.ahi := rfl
@[simp] theorem takeSnapshot_rxdata (s : State) : (takeSnapshot s).rxdata = s.rxdata := rfl
@[simp] theorem takeSnapshot_txdata (s : State) : (takeSnapshot s).txdata = s.txdata := rfl
@[simp] theorem takeSnapshot_shift (s : State) : (takeSnapshot s).shift = s.shift := rfl
@[simp] theorem takeSnapshot_bitcnt (s : State) : (takeSnapshot s).bitcnt = s.bitcnt := rfl
@[simp] theorem takeSnapshot_selected (s : State) : (takeSnapshot s).selected = s.selected := rfl
@[simp] theorem takeSnapshot_byteIe (s : State) : (takeSnapshot s).byteIe = s.byteIe := rfl
@[simp] theorem takeSnapshot_sendPending (s : State) : (takeSnapshot s).sendPending = s.sendPending := rfl
@[simp] theorem takeSnapshot_recvPending (s : State) : (takeSnapshot s).recvPending = s.recvPending := rfl
@[simp] theorem takeSnapshot_fault (s : State) : (takeSnapshot s).fault = s.fault := rfl
@[simp] theorem takeSnapshot_csPend (s : State) : (takeSnapshot s).csPend = s.csPend := rfl
@[simp] theorem takeSnapshot_bytePend (s : State) : (takeSnapshot s).bytePend = s.bytePend := rfl
@[simp] theorem takeSnapshot_awdPend (s : State) : (takeSnapshot s).awdPend = s.awdPend := rfl
@[simp] theorem takeSnapshot_ovrPend (s : State) : (takeSnapshot s).ovrPend = s.ovrPend := rfl
@[simp] theorem takeSnapshot_sa (s : State) : (takeSnapshot s).sa = { s.sa with snapshot := s.sa.slot Config.monCh.val } := rfl
@[simp] theorem takeSnapshot_seqIdx (s : State) : (takeSnapshot s).seqIdx = s.seqIdx := rfl
@[simp] theorem takeSnapshot_samplerRun (s : State) : (takeSnapshot s).samplerRun = s.samplerRun := rfl
@[simp] theorem takeSnapshot_cfg (s : State) : (takeSnapshot s).cfg = s.cfg := rfl
@[simp] theorem takeSnapshot_env (s : State) : (takeSnapshot s).env = s.env := rfl
@[simp] theorem takeSnapshot_inputs (s : State) : (takeSnapshot s).inputs = s.inputs := rfl
@[simp] theorem takeSnapshot_trace (s : State) : (takeSnapshot s).trace = s.trace := rfl
@[simp] theorem takeSnapshot_misoBits (s : State) : (takeSnapshot s).misoBits = s.misoBits := rfl

@[simp] theorem memRead_byte (s : State) (a : Addr) : (memRead a s).1 = memReadByte s a := rfl

end Sys2Proof.Machine
end

