-- ==== Sys2Proof/Laws/Memory.lean ====
section
/-! SUPPORT. The Register File's cells: reading after writing, and the canonical form that every memory operation keeps. -/

namespace Sys2Proof.Machine

open Sys2Proof

/-- A put entry is the one listed. -/
theorem Memory.read?_put_same (m : Memory) (a : Nat) (v : Byte) : (m.put a v).read? a = some v := by
  induction m with
  | nil => simp [Memory.put, Memory.read?]
  | cons e rest ih =>
    obtain ⟨k, w⟩ := e
    unfold Memory.put
    split_ifs with h1 h2
    · simp [Memory.read?]
    · simp [Memory.read?]
    · simp [Memory.read?, Ne.symm h2, ih]

/-- Putting an entry leaves every other address alone. -/
theorem Memory.read?_put_other (m : Memory) (a b : Nat) (v : Byte) (h : b ≠ a) : (m.put a v).read? b = m.read? b := by
  induction m with
  | nil => simp [Memory.put, Memory.read?, Ne.symm h]
  | cons e rest ih =>
    obtain ⟨k, w⟩ := e
    unfold Memory.put
    split_ifs with h1 h2
    · simp [Memory.read?, Ne.symm h]
    · subst h2
      simp [Memory.read?, Ne.symm h]
    · simp [Memory.read?, ih]

/-- An erased address is not listed. -/
theorem Memory.read?_erase_same (m : Memory) (a : Nat) : (m.erase a).read? a = none := by
  induction m with
  | nil => rfl
  | cons e rest ih =>
    obtain ⟨k, w⟩ := e
    unfold Memory.erase
    split_ifs with h
    · exact ih
    · simp [Memory.read?, h, ih]

/-- Erasing leaves every other address alone. -/
theorem Memory.read?_erase_other (m : Memory) (a b : Nat) (h : b ≠ a) : (m.erase a).read? b = m.read? b := by
  induction m with
  | nil => rfl
  | cons e rest ih =>
    obtain ⟨k, w⟩ := e
    unfold Memory.erase
    split_ifs with hk
    · subst hk
      simp [Memory.read?, Ne.symm h, ih]
    · simp [Memory.read?, ih]

/-- A written cell holds what was written, listed or not. -/
theorem Memory.read?_write_same (m : Memory) (blank : Option Byte) (a : Nat) (v : Byte) :
    ((m.write blank a v).read? a).or blank = some v := by
  unfold Memory.write
  split_ifs with h
  · rw [Memory.read?_erase_same, h]
    rfl
  · rw [Memory.read?_put_same]
    rfl

/-- A write leaves every other address alone. -/
theorem Memory.read?_write_other (m : Memory) (blank : Option Byte) (a b : Nat) (v : Byte) (h : b ≠ a) :
    (m.write blank a v).read? b = m.read? b := by
  unfold Memory.write
  split_ifs
  · exact Memory.read?_erase_other m a b h
  · exact Memory.read?_put_other m a b v h

/-- A list in canonical form above a bound is so above every lower bound. -/
theorem Memory.wfFrom_mono {blank : Option Byte} {m : Memory} {low low' : Nat} (hl : low' ≤ low)
    (h : Memory.wfFrom blank low m = true) : Memory.wfFrom blank low' m = true := by
  cases m with
  | nil => rfl
  | cons e rest =>
    obtain ⟨k, w⟩ := e
    simp only [Memory.wfFrom, Bool.and_eq_true, decide_eq_true_eq] at h ⊢
    exact ⟨⟨⟨by omega, h.1.1.2⟩, h.1.2⟩, h.2⟩

/-- Putting an entry that is not what an unlisted cell holds keeps the canonical form. -/
theorem Memory.wfFrom_put (blank : Option Byte) (m : Memory) (low a : Nat) (v : Byte) (hl : low ≤ a) (ha : a < 0x8000)
    (hv : blank ≠ some v) (h : Memory.wfFrom blank low m = true) : Memory.wfFrom blank low (m.put a v) = true := by
  induction m generalizing low with
  | nil => simp [Memory.put, Memory.wfFrom, hl, ha, hv]
  | cons e rest ih =>
    obtain ⟨k, w⟩ := e
    simp only [Memory.wfFrom, Bool.and_eq_true, decide_eq_true_eq] at h
    obtain ⟨⟨⟨hk, hk'⟩, hw⟩, hr⟩ := h
    unfold Memory.put
    split_ifs with h1 h2
    · simp only [Memory.wfFrom, Bool.and_eq_true, decide_eq_true_eq]
      exact ⟨⟨⟨hl, ha⟩, hv⟩, ⟨⟨h1, hk'⟩, hw⟩, hr⟩
    · subst h2
      simp only [Memory.wfFrom, Bool.and_eq_true, decide_eq_true_eq]
      exact ⟨⟨⟨hl, ha⟩, hv⟩, hr⟩
    · simp only [Memory.wfFrom, Bool.and_eq_true, decide_eq_true_eq]
      exact ⟨⟨⟨hk, hk'⟩, hw⟩, ih (k + 1) (by omega) hr⟩

/-- Erasing keeps the canonical form. -/
theorem Memory.wfFrom_erase (blank : Option Byte) (m : Memory) (low a : Nat) (h : Memory.wfFrom blank low m = true) :
    Memory.wfFrom blank low (m.erase a) = true := by
  induction m generalizing low with
  | nil => rfl
  | cons e rest ih =>
    obtain ⟨k, w⟩ := e
    simp only [Memory.wfFrom, Bool.and_eq_true, decide_eq_true_eq] at h
    obtain ⟨⟨⟨hk, hk'⟩, hw⟩, hr⟩ := h
    unfold Memory.erase
    split_ifs
    · exact Memory.wfFrom_mono (by omega) (ih (k + 1) hr)
    · simp only [Memory.wfFrom, Bool.and_eq_true, decide_eq_true_eq]
      exact ⟨⟨⟨hk, hk'⟩, hw⟩, ih (k + 1) hr⟩

/-- Writing at an address of the Register File keeps the canonical form. -/
theorem Memory.wf_write (m : Memory) (blank : Option Byte) (a : Addr) (v : Byte) (h : m.wf blank = true) :
    (m.write blank a.toNat v).wf blank = true := by
  unfold Memory.write
  split_ifs with hv
  · exact Memory.wfFrom_erase blank m 0 a.toNat h
  · exact Memory.wfFrom_put blank m 0 a.toNat v (Nat.zero_le _) a.isLt hv h

/-- The canonical form at reset. -/
theorem reset_memory_wf : State.reset.env.mem.wf State.reset.env.blank = true := rfl

/-- `MemRead` changes no cell. -/
@[simp] theorem memRead_mem (a : Addr) (s : State) : (memRead a s).2.env.mem = s.env.mem := rfl

/-- `MemWrite` keeps the canonical form. -/
theorem memWrite_wf (a : Addr) (v : Byte) (s : State) (h : s.env.mem.wf s.env.blank = true) :
    (memWrite a v s).env.mem.wf (memWrite a v s).env.blank = true := by
  simp only [memWrite_env]
  split_ifs
  · exact h
  · exact Memory.wf_write _ _ _ _ h

/-- A move of the environment keeps the canonical form. -/
theorem envMove_wf (m : EnvMove) (s : State) (h : s.env.mem.wf s.env.blank = true) :
    (envMove m s).env.mem.wf (envMove m s).env.blank = true := by
  cases m with
  | cell a v => exact Memory.wf_write _ _ _ _ h
  | sendGrant g => exact h
  | recvGrant g => exact h

/-- What `MemWrite` does to a cell. -/
theorem cell_memWrite (a b : Addr) (v : Byte) (s : State) :
    cell (memWrite a v s) b = if inOverlay s a = false ∧ b = a then some v else cell s b := by
  simp only [cell, memWrite_env]
  by_cases h : inOverlay s a = true
  · simp [h]
  · rw [Bool.not_eq_true] at h
    simp only [h, Bool.false_eq_true, if_false, true_and]
    split_ifs with hb
    · rw [hb, Memory.read?_write_same]
    · rw [Memory.read?_write_other _ _ _ _ _ (fun hc => hb (BitVec.eq_of_toNat_eq hc))]

end Sys2Proof.Machine
end

