-- ==== Sys2Proof/Laws/PerInstr.lean ====
section
/-! SUPPORT. The statements made per command: the command byte of a well-formed command's header selects the command's own
row of the opcode table and no other (30_encoding.md R105), and bit 7 of it tells the length of the header (R91). -/

namespace Sys2Proof.Laws

open Sys2Proof

/-- The header of a well-formed command starts with a byte that selects the command's row alone, and has one byte more
exactly when bit 7 of that byte is 1. -/
def HeaderSelectsRow.Statement (i : Instr) : Prop :=
  i.wf = true → ∃ (c : Byte) (more : List Byte), encode i = c :: more ∧
    opcodeRows.filter (selectsRow c) = [i.row] ∧ more.length = (if c.getLsbD 7 then 1 else 0)

theorem HeaderSelectsRow.read (hi7 : Page) (lo8 : Byte) : HeaderSelectsRow.Statement (.read hi7 lo8) := by
  intro _
  have h : ∀ p : Page, opcodeRows.filter (selectsRow (formatA p)) = [(0x80#8, 0x80#8)] ∧
      (formatA p).getLsbD 7 = true := by decide
  exact ⟨_, _, rfl, (h hi7).1, by simp [(h hi7).2]⟩

theorem HeaderSelectsRow.send (arg4 : Nibble) : HeaderSelectsRow.Statement (.send arg4) := by
  intro _
  refine ⟨_, _, rfl, ?_⟩
  revert arg4
  decide

theorem HeaderSelectsRow.enable (id : Nibble) : HeaderSelectsRow.Statement (.enable id) := by
  intro _
  refine ⟨_, _, rfl, ?_⟩
  revert id
  decide

theorem HeaderSelectsRow.disable (id : Nibble) : HeaderSelectsRow.Statement (.disable id) := by
  intro _
  refine ⟨_, _, rfl, ?_⟩
  revert id
  decide

theorem HeaderSelectsRow.recv (arg4 : Nibble) : HeaderSelectsRow.Statement (.recv arg4) := by
  intro _
  refine ⟨_, _, rfl, ?_⟩
  revert arg4
  decide

theorem HeaderSelectsRow.reset : HeaderSelectsRow.Statement .reset :=
  fun _ => ⟨_, _, rfl, by decide⟩

theorem HeaderSelectsRow.test0to7 (arg4 : Nibble) : HeaderSelectsRow.Statement (.test0to7 arg4) := by
  intro h
  refine ⟨_, _, rfl, ?_⟩
  revert arg4
  decide

theorem HeaderSelectsRow.test8to11 (arg4 : Nibble) : HeaderSelectsRow.Statement (.test8to11 arg4) := by
  intro h
  refine ⟨_, _, rfl, ?_⟩
  revert arg4
  decide

theorem HeaderSelectsRow.test12to13 (arg4 : Nibble) : HeaderSelectsRow.Statement (.test12to13 arg4) := by
  intro h
  refine ⟨_, _, rfl, ?_⟩
  revert arg4
  decide

theorem HeaderSelectsRow.test14 : HeaderSelectsRow.Statement .test14 :=
  fun _ => ⟨_, _, rfl, by decide⟩

theorem HeaderSelectsRow.unsup5 (arg4 : Nibble) : HeaderSelectsRow.Statement (.unsup5 arg4) := by
  intro _
  refine ⟨_, _, rfl, ?_⟩
  revert arg4
  decide

theorem HeaderSelectsRow.unsup6to7 (opc arg4 : Nibble) : HeaderSelectsRow.Statement (.unsup6to7 opc arg4) := by
  intro h
  refine ⟨_, _, rfl, ?_⟩
  revert opc arg4
  decide

end Sys2Proof.Laws
end

