-- ==== Sys2Proof/Laws/Service.lean ====
section
/-! SUPPORT. What the shared operations of a step can do: access through the cursor, the arbiter, the services, the
presentation of an event. -/

namespace Sys2Proof.Machine

open Sys2Proof

/-- Going on after a next state. -/
@[simp] theorem andThen_next (s : State) (f : State → Host.Outcome State Fault Refusal) :
    andThen (.next s) f = f s := rfl

/-- What was reached by going on was reached through a next state. -/
theorem andThen_eq_next {o : Host.Outcome State Fault Refusal} {f : State → Host.Outcome State Fault Refusal} {t : State}
    (h : andThen o f = .next t) : ∃ u, o = .next u ∧ f u = .next t := by
  cases o with
  | next u => exact ⟨u, rfl, h⟩
  | fault r => exact nomatch r
  | refused r => simp [andThen] at h

/-! ### Access through the cursor -/

/-- `CurRead()` through a valid cursor. -/
theorem curRead_valid {s : State} (h : s.cursor.valid = true) : curRead s = memRead s.cursor.addr s := by
  simp [curRead, h]

/-- `CurRead()` through an invalid cursor: the byte 0x00, no call. -/
theorem curRead_invalid {s : State} (h : s.cursor.valid = false) : curRead s = (Config.invalidReadByte, s) := by
  simp [curRead, h]

/-- `CurWrite(v)` through a valid cursor. -/
theorem curWrite_valid {s : State} (v : Byte) (h : s.cursor.valid = true) : curWrite v s = memWrite s.cursor.addr v s := by
  simp [curWrite, h]

/-- `CurWrite(v)` through an invalid cursor does nothing. -/
theorem curWrite_invalid {s : State} (v : Byte) (h : s.cursor.valid = false) : curWrite v s = s := by
  simp [curWrite, h]

/-- `CurInc()` of a valid cursor. -/
theorem curInc_valid {s : State} (h : s.cursor.valid = true) : curInc s = s.aim (nextAddr s.cursor.addr) := by
  simp [curInc, State.aim, h]

/-- `CurInc()` of an invalid cursor does nothing. -/
theorem curInc_invalid {s : State} (h : s.cursor.valid = false) : curInc s = s := by
  simp [curInc, h]

/-- An address is in an overlay by the parameters alone. -/
theorem inOverlay_eq (s : State) (a : Addr) :
    inOverlay s a = (decide (a = s.cfg.statusAddr) ||
      (decide (s.cfg.sampleBase.toNat ≤ a.toNat) &&
       decide (a.toNat - s.cfg.sampleBase.toNat < Config.slots * s.cfg.sampleBytes))) := by
  unfold inOverlay overlayByte?
  by_cases h : a = s.cfg.statusAddr
  · simp [h]
  · by_cases h2 : s.cfg.sampleBase.toNat ≤ a.toNat ∧
      a.toNat - s.cfg.sampleBase.toNat < Config.slots * s.cfg.sampleBytes
    · simp [h, h2]
    · rw [if_neg h, if_neg h2]
      simp only [Option.isSome_none, h, decide_false, Bool.false_or]
      rw [eq_comm, Bool.and_eq_false_iff, decide_eq_false_iff_not, decide_eq_false_iff_not]
      tauto

/-- The overlays stand where the parameters put them, in every state with these parameters. -/
theorem inOverlay_congr {s t : State} (h : t.cfg = s.cfg) (a : Addr) : inOverlay t a = inOverlay s a := by
  simp only [inOverlay_eq, h]

/-- What `MemRead(a, 1)` adds to the trace, by the byte it answers. -/
theorem memReadCalls_eq (s : State) (a : Addr) : memReadCalls s a = fetchCall s a (memReadByte s a) := by
  unfold memReadCalls fetchCall memReadByte
  cases h : overlayByte? s a <;> simp [inOverlay, h]

/-- An overlay's byte depends on the parameters, the Sample Array and STATUS alone. -/
theorem memReadByte_overlay_congr {s t : State} {a : Addr} (ha : inOverlay s a = true) (hc : t.cfg = s.cfg)
    (hs : t.sa = s.sa) (hf : statusByte t = statusByte s) : memReadByte t a = memReadByte s a := by
  have ho : overlayByte? t a = overlayByte? s a := by simp only [overlayByte?, hc, hs, hf]
  obtain ⟨v, hv⟩ := Option.isSome_iff_exists.1 ha
  simp only [memReadByte, ho, hv, Option.getD_some]

/-- The byte of a cell that holds one. -/
theorem memReadByte_of_cell {s : State} {a : Addr} {v : Byte} (ha : inOverlay s a = false) (hv : cell s a = some v) :
    memReadByte s a = v := by
  have ho : overlayByte? s a = none := by simpa [inOverlay] using ha
  simp [memReadByte, ho, registerReadAnswer, hv]

/-- Zero places on. -/
@[simp] theorem addrPlus_zero (a : Addr) : addrPlus a 0 = a := by simp [addrPlus]

/-- One place on, then `n` places. -/
theorem addrPlus_next (a : Addr) (n : Nat) : addrPlus (nextAddr a) n = addrPlus a (n + 1) := by
  apply BitVec.eq_of_toNat_eq
  simp only [addrPlus, nextAddr, BitVec.toNat_add, BitVec.toNat_ofNat]
  omega

/-! ### The arbiter -/

/-- Where a byte is serviced: in the header, and in a data phase while BYTE_IE is 1 (60_exceptions.md R256). -/
theorem byteEnabled_iff (s : State) :
    byteEnabled s = true ↔ s.phase = .cmd ∨ s.phase = .addrLo ∨ (s.phase = .stream ∧ s.byteIe = true) := by
  unfold byteEnabled
  split <;> simp [*]

/-- With no latch set the arbiter picks nothing. -/
theorem arbiter_quiet {s : State} (h : Quiet s) : arbiter s = none := by
  obtain ⟨h1, h2, h3, h4⟩ := h
  simp [arbiter, h1, h2, h3, h4]

/-- With no latch set nothing is serviced. -/
@[simp] theorem arbitrate_quiet {s : State} (h : Quiet s) (n : Nat) : arbitrate n s = .next s := by
  cases n with
  | zero => rfl
  | succ n => simp [arbitrate, arbiter_quiet h]

/-- In HALT nothing is serviced (40_framing.md R133). -/
theorem arbitrate_halt {s : State} (h : s.phase = .halt) (n : Nat) : arbitrate n s = .next s := by
  cases n with
  | zero => rfl
  | succ n => simp [arbitrate, arbiter, h]

/-- One round of the arbiter. -/
theorem arbitrate_of_pick' {s : State} {src : Source} {n : Nat} (h : arbiter s = some src) :
    arbitrate (n + 1) s = andThen (service src s) (arbitrate n) := by
  simp [arbitrate, h]

/-- One round of the arbiter, its service known. -/
theorem arbitrate_of_pick {s t : State} {src : Source} {n : Nat} (h : arbiter s = some src)
    (hs : service src s = .next t) : arbitrate (n + 1) s = arbitrate n t := by
  rw [arbitrate_of_pick' h, hs, andThen_next]

/-- A pending breach is serviced first (60_exceptions.md R258). -/
theorem arbitrate_breach {s : State} (n : Nat) (hh : s.phase ≠ .halt) (h : s.awdPend = true) :
    arbitrate (n + 1) s = arbitrate n (breachService s) :=
  arbitrate_of_pick (src := .breach) (by simp [arbiter, hh, h]) rfl

/-- A pending overrun is serviced after a breach and before anything else. -/
theorem arbitrate_overrun {s : State} (n : Nat) (hh : s.phase ≠ .halt) (ha : s.awdPend = false)
    (h : s.ovrPend = true) : arbitrate (n + 1) s = arbitrate n (overrunService s) :=
  arbitrate_of_pick (src := .overrun) (by simp [arbiter, hh, ha, h]) rfl

/-- A pending edge is serviced before a byte. -/
theorem arbitrate_edge {s : State} (n : Nat) (hh : s.phase ≠ .halt) (ha : s.awdPend = false)
    (ho : s.ovrPend = false) (h : s.csPend = true) : arbitrate (n + 1) s = arbitrate n (edgeService s) :=
  arbitrate_of_pick (src := .edge) (by simp [arbiter, hh, ha, ho, h]) rfl

/-! ### Commands and the latches -/

/-- Every command completes, touches no latch but BYTE_PEND, and that only to clear it; it changes neither the inputs nor
the parameters nor the choice of the environment. -/
theorem exec_spec (i : Instr) (s : State) : ∃ t, exec i s = .next t ∧
    t.awdPend = s.awdPend ∧ t.ovrPend = s.ovrPend ∧ t.csPend = s.csPend ∧
    (s.bytePend = false → t.bytePend = false) ∧ t.inputs = s.inputs ∧ t.cfg = s.cfg := by
  cases i with
  | read hi7 lo8 => exact ⟨_, rfl, rfl, rfl, rfl, fun _ => rfl, rfl, rfl⟩
  | send arg4 =>
    refine ⟨_, rfl, ?_⟩
    cases h : s.env.sendGrant with
    | none => exact ⟨rfl, rfl, rfl, id, rfl, rfl⟩
    | some g => exact ⟨rfl, rfl, rfl, id, rfl, rfl⟩
  | enable id => exact ⟨_, rfl, rfl, rfl, rfl, fun h => h, rfl, rfl⟩
  | disable id => exact ⟨_, rfl, rfl, rfl, rfl, fun h => h, rfl, rfl⟩
  | recv arg4 =>
    refine ⟨_, rfl, ?_⟩
    cases h : s.env.recvGrant with
    | none => exact ⟨rfl, rfl, rfl, id, rfl, rfl⟩
    | some g => exact ⟨rfl, rfl, rfl, id, rfl, rfl⟩
  | reset => exact ⟨_, rfl, rfl, rfl, rfl, fun h => h, rfl, rfl⟩
  | test0to7 arg4 => exact ⟨_, rfl, rfl, rfl, rfl, fun h => h, rfl, rfl⟩
  | test8to11 arg4 => exact ⟨_, rfl, rfl, rfl, rfl, fun h => h, rfl, rfl⟩
  | test12to13 arg4 => exact ⟨_, rfl, rfl, rfl, rfl, fun h => h, rfl, rfl⟩
  | test14 => exact ⟨_, rfl, rfl, rfl, rfl, fun h => h, rfl, rfl⟩
  | unsup5 arg4 => exact ⟨_, rfl, rfl, rfl, rfl, fun h => h, rfl, rfl⟩
  | unsup6to7 opc arg4 => exact ⟨_, rfl, rfl, rfl, rfl, fun h => h, rfl, rfl⟩

/-- A command leaves a quiet state quiet. -/
theorem exec_quiet {i : Instr} {s t : State} (hq : Quiet s) (h : exec i s = .next t) : Quiet t := by
  obtain ⟨u, hu, h1, h2, h3, h4, -⟩ := exec_spec i s
  rw [hu] at h
  cases h
  obtain ⟨q1, q2, q3, q4⟩ := hq
  exact ⟨h1.trans q1, h2.trans q2, h3.trans q3, h4 q4⟩

/-- What follows the meaning of a command in its step: nothing. -/
theorem exec_then_arbitrate {i : Instr} {s : State} (hq : Quiet s) (n : Nat) :
    andThen (exec i s) (arbitrate n) = exec i s := by
  obtain ⟨t, ht, -⟩ := exec_spec i s
  rw [ht]
  exact arbitrate_quiet (exec_quiet hq ht) n

/-! ### The command service -/

/-- What the command service does: the decoded command with the inputs it did not take, or the wait of a READ for its low
byte. -/
theorem commandService_cases (s : State) :
    (∃ (i : Instr) (later : List Instant), commandService s = exec i { s with inputs := later }) ∨
    commandService s = .next (readCommand (hi7Of s.rxdata) s) := by
  unfold commandService
  split
  · split
    · exact .inl ⟨_, _, rfl⟩
    · exact .inl ⟨_, s.inputs, rfl⟩
    · exact .inr rfl
  · split
    · exact .inl ⟨_, s.inputs, rfl⟩
    · exact .inr rfl

/-- Between byte times the byte that stands next is the one the inputs begin with. -/
theorem nextHeaderByte_eq {s : State} (hb : s.bitcnt = 0#3) : nextHeaderByte s = waitingByte s.inputs := by
  simp [nextHeaderByte, hb]

/-- A one-byte header is decoded from the command byte, whatever stands next. -/
theorem commandService_formatN {s : State} (h : isFormatA s.rxdata = false) :
    commandService s = exec (decodeFormatN s.rxdata) s := by
  unfold commandService
  cases hw : nextHeaderByte s with
  | none => simp [decode, h]
  | some p => obtain ⟨lo, later⟩ := p; simp [decode, h]

/-- A READ whose low byte stands next takes it. -/
theorem commandService_read {s : State} {lo : Byte} {later : List Instant} (h : isFormatA s.rxdata = true)
    (hb : s.bitcnt = 0#3) (hw : waitingByte s.inputs = some (lo, later)) :
    commandService s = exec (.read (hi7Of s.rxdata) lo) { s with inputs := later } := by
  simp [commandService, nextHeaderByte_eq hb, hw, decode, h]

/-- A READ whose low byte does not stand next waits. -/
theorem commandService_wait {s : State} (h : isFormatA s.rxdata = true) (hw : nextHeaderByte s = none) :
    commandService s = .next (readCommand (hi7Of s.rxdata) s) := by
  simp [commandService, hw, decode, h]

/-! ### One event at a time -/

/-- A step presents the first instant and services what it set. -/
theorem step_cons {s : State} {now : Instant} {later : List Instant} (h : s.inputs = now :: later) :
    step s = andThen (presentAll now { s with inputs := later }) (arbitrate serviceRounds) := by
  simp [step, serviceNextInstant, h]

/-- An instant with one event. -/
theorem presentAll_single (e : Event) (s : State) : presentAll [e] s = present e s := by
  cases h : present e s with
  | next t => simp [presentAll, h]
  | fault r => exact nomatch r
  | refused r => simp [presentAll, h, andThen]

/-- An event that sets no latch is the whole step. -/
theorem step_of_quiet {s t : State} {e : Event} {later : List Instant} (h : s.inputs = [e] :: later)
    (hp : present e { s with inputs := later } = .next t) (hq : Quiet t) : step s = .next t := by
  rw [step_cons h, presentAll_single, hp]
  exact arbitrate_quiet hq _

/-- A byte while selected, between byte times, nothing pending: the exchange, then the service of the byte by phase, then
nothing. -/
theorem step_byte {s : State} {b : Byte} {later : List Instant} (h : s.inputs = [.byte b] :: later)
    (hs : s.selected = true) (hb : s.bitcnt = 0#3) (hq : Quiet s)
    (he : s.phase = .cmd ∨ s.phase = .addrLo ∨ (s.phase = .stream ∧ s.byteIe = true)) :
    step s = andThen (byteService (afterByte b later s)) (arbitrate 3) := by
  obtain ⟨q1, q2, q3, q4⟩ := hq
  have hh : s.phase ≠ .halt := by rcases he with h | h | h <;> simp [h]
  have hi : s.phase ≠ .idle := by rcases he with h | h | h <;> simp [h]
  have hp : present (.byte b) { s with inputs := later } =
      .next (State.exchange { s with inputs := later } b s.txdata) := by
    simp [present, presentByte, hh, hi, hs, hb, q4]
  rw [step_cons h, presentAll_single, hp]
  have ha : arbiter (State.exchange { s with inputs := later } b s.txdata) = some .byte := by
    rcases he with h | h | ⟨h, h'⟩ <;> simp [arbiter, byteEnabled, *]
  have hst : ({ State.exchange { s with inputs := later } b s.txdata with bytePend := false } : State) =
      afterByte b later s := by simp [State.exchange, afterByte, q4]
  rw [andThen_next, serviceRounds, arbitrate_of_pick' ha]
  exact congrArg (fun x => andThen (byteService x) (arbitrate 3)) hst

/-- What `afterByte` keeps. -/
theorem afterByte_quiet {s : State} (hq : Quiet s) (b : Byte) (later : List Instant) : Quiet (afterByte b later s) := hq

/-- A command byte: the step is the command service. -/
theorem step_command {s : State} {b : Byte} {later : List Instant} (h : AtCommand s)
    (hin : s.inputs = [.byte b] :: later) : step s = commandService (afterByte b later s) := by
  obtain ⟨hp, hs, hb, hq⟩ := h
  have hph : (afterByte b later s).phase = .cmd := hp
  have hbs : byteService (afterByte b later s) = commandService (afterByte b later s) := by
    simp [byteService, hph]
  rw [step_byte hin hs hb hq (.inl hp), hbs]
  rcases commandService_cases (afterByte b later s) with ⟨i, l, hi⟩ | hi
  · have hq' : Quiet { afterByte b later s with inputs := l } := hq
    rw [hi]
    exact exec_then_arbitrate hq' 3
  · rw [hi]
    exact arbitrate_quiet (show Quiet (readCommand _ (afterByte b later s)) from hq) 3

/-- A data byte: the step is the byte-clock service. -/
theorem step_data {s : State} {b : Byte} {later : List Instant} (h : AtData s)
    (hin : s.inputs = [.byte b] :: later) (hq' : Quiet (byteClockService b (afterByte b later s))) :
    step s = .next (byteClockService b (afterByte b later s)) := by
  obtain ⟨hp, hie, hs, hb, hq⟩ := h
  have hph : (afterByte b later s).phase = .stream := hp
  have hbs : byteService (afterByte b later s) = .next (byteClockService b (afterByte b later s)) := by
    simp [byteService, hph]; rfl
  rw [step_byte hin hs hb hq (.inr (.inr ⟨hp, hie⟩)), hbs]
  exact arbitrate_quiet hq' 3

/-- A low byte: the step is the address-low service. -/
theorem step_lowByte {s : State} {b : Byte} {later : List Instant} (h : AtLowByte s)
    (hin : s.inputs = [.byte b] :: later) : step s = .next (readAddrLow b (afterByte b later s)) := by
  obtain ⟨hp, hs, hb, hq⟩ := h
  have hph : (afterByte b later s).phase = .addrLo := hp
  have hbs : byteService (afterByte b later s) = .next (readAddrLow b (afterByte b later s)) := by
    simp [byteService, hph]; rfl
  rw [step_byte hin hs hb hq (.inr (.inl hp)), hbs]
  exact arbitrate_quiet (show Quiet (readAddrLow b (afterByte b later s)) from hq) 3

/-- A falling edge in IDLE: the step is the `CS_FALL` service. -/
theorem step_fall {s : State} {later : List Instant} (hp : s.phase = .idle) (hq : Quiet s)
    (hin : s.inputs = [.csFall] :: later) : step s = .next (csFallService { s with inputs := later }) := by
  obtain ⟨q1, q2, q3, q4⟩ := hq
  rw [step_cons hin, presentAll_single]
  simp [present, presentFall, hp, q3, serviceRounds, arbitrate, arbiter, service, edgeService, q1, q2]
  simp [csFallService, State.dropCursor, q4]

/-- A rising edge in an open transfer: the step is the `CS_RISE` service. -/
theorem step_rise {s : State} {later : List Instant} (hp : s.phase = .cmd ∨ s.phase = .addrLo ∨ s.phase = .stream)
    (hq : Quiet s) (hin : s.inputs = [.csRise] :: later) :
    step s = .next (csRiseService { s with inputs := later }) := by
  obtain ⟨q1, q2, q3, q4⟩ := hq
  have hh : s.phase ≠ .halt := by rcases hp with h | h | h <;> simp [h]
  have hi : s.phase ≠ .idle := by rcases hp with h | h | h <;> simp [h]
  have hpr : present .csRise { s with inputs := later } = .next { s with inputs := later, csPend := true } := by
    simp [present, presentRise, hh, hi, q3]
  have ha : arbiter { s with inputs := later, csPend := true } = some .edge := by
    simp [arbiter, hh, q1, q2]
  have he : edgeService { s with inputs := later, csPend := true } = csRiseService { s with inputs := later } := by
    have : ({ s with inputs := later, csPend := false } : State) = { s with inputs := later } := by simp [q3]
    rcases hp with h | h | h <;> simp [edgeService, h, q3]
  rw [step_cons hin, presentAll_single, hpr]
  have hq' : Quiet (csRiseService { s with inputs := later }) := by
    refine ⟨?_, ?_, ?_, ?_⟩ <;>
      (simp only [csRiseService, finalizeSend, finalizeRecv]; split_ifs <;> simp_all)
  show arbitrate (3 + 1) _ = _
  rw [arbitrate_of_pick ha (show service .edge _ = .next _ from rfl), he]
  exact arbitrate_quiet hq' 3

/-! ### Runs -/

/-- A run takes its first step. -/
theorem runSteps_succ {s t : State} (n : Nat) (h : step s = .next t) : runSteps (n + 1) s = runSteps n t := by
  have h' : Sys2Proof.core.step s = .next t := h
  simp only [runSteps, Host.Core.run, h']
  rfl

/-- No step. -/
@[simp] theorem runSteps_zero (s : State) : runSteps 0 s = .next s := rfl

end Sys2Proof.Machine
end

