-- ==== Sys2Proof/Laws/Steps.lean ====
section
/-! SUPPORT. What each shared service does, said once, all that a round of the arbiter can do, and the rule by which what
every event and every service keeps is kept by a step. -/

namespace Sys2Proof.Machine

open Sys2Proof

/-! ### The services of the edges and of the monitor -/

/-- The `CS_RISE` service as one update (40_framing.md R126): both commits decide by their own flag. -/
theorem csRiseService_eq (s : State) : csRiseService s =
    { s with
      byteIe := false, bytePend := false, selected := false, shift := 0#8, bitcnt := 0#3, misoBits := 0#8,
      phase := .idle, sendPending := false, recvPending := false,
      trace := s.trace ++ (if s.sendPending then [.call .sendExecute] else [])
        ++ (if s.recvPending then [.call .recvPopFront] else []),
      env := { s.env with
        sendCommits := s.env.sendCommits + (if s.sendPending then 1 else 0),
        recvPops := s.env.recvPops + (if s.recvPending then 1 else 0) } } := by
  cases h1 : s.sendPending <;> cases h2 : s.recvPending <;>
    simp [csRiseService, finalizeSend, finalizeRecv, h1, h2, clearSendPending, clearRecvPending, callSendExecute,
      callRecvPopFront, State.call]

/-- The `CS_FALL` service as one update (R123). -/
theorem csFallService_eq (s : State) : csFallService s =
    { s with
      cursor := { valid := false, addr := s.cursor.addr }, selected := true, op := .none, phase := .cmd } := rfl

/-- Which service a chip-select edge gets. -/
theorem edgeService_eq (s : State) : edgeService s =
    if s.phase = .halt then s
    else if s.phase = .idle then csFallService { s with csPend := false }
    else csRiseService { s with csPend := false } := by
  cases hp : s.phase <;> simp [edgeService, hp]

/-- The breach service as one update (45_analog_monitor.md R224). -/
theorem breachService_eq (s : State) : breachService s =
    { s with
      trace := s.trace ++ [.call .powerFault], env := { s.env with pfCount := s.env.pfCount + 1 }, fault := true,
      sa := { s.sa with snapshot := s.sa.isense }, awdPend := false } := by
  simp [breachService, takeSnapshot, setFault, callPowerFault, State.call, SampleArray.slot, Config.monCh]

/-- The overrun service as one update (R227). -/
theorem overrunService_eq (s : State) : overrunService s =
    { s with fault := s.fault || s.samplerRun, samplerRun := false, ovrPend := false } := by
  cases h : s.samplerRun <;> simp [overrunService, setFault, h]

/-- `SAMPLER_START` as one update (R229, R223): a pending breach and a pending overrun get their service first. -/
theorem samplerStart_eq (s : State) : samplerStart s =
    { s with
      samplerRun := true, seqIdx := 0, awdPend := false, ovrPend := false,
      fault := s.fault || s.awdPend || (s.ovrPend && s.samplerRun),
      sa := { s.sa with snapshot := if s.awdPend then s.sa.isense else s.sa.snapshot },
      trace := s.trace ++ (if s.awdPend then [.call .powerFault] else []),
      env := { s.env with pfCount := s.env.pfCount + (if s.awdPend then 1 else 0) } } := by
  cases h1 : s.awdPend <;> cases h2 : s.ovrPend <;>
    simp [samplerStart, settleConverter, breachService_eq, overrunService_eq, h1, h2]

/-- `SAMPLER_START` with nothing of the converter pending (R229). -/
theorem samplerStart_quiet {s : State} (ha : s.awdPend = false) (ho : s.ovrPend = false) :
    samplerStart s = { s with samplerRun := true, seqIdx := 0 } := by
  simp [samplerStart_eq, ha, ho]

/-! ### The byte-clock service -/

/-- A data byte does not move PHASE. -/
@[simp] theorem byteClockService_phase (b : Byte) (s : State) : (byteClockService b s).phase = s.phase := by
  unfold byteClockService
  split <;> first | rfl | (unfold streamFetch curRead; split_ifs <;> rfl) | (unfold streamSend curWrite; split_ifs <;> rfl)

/-- A data byte does not change OP. -/
@[simp] theorem byteClockService_op (b : Byte) (s : State) : (byteClockService b s).op = s.op := by
  unfold byteClockService
  split <;> first | rfl | (unfold streamFetch curRead; split_ifs <;> rfl) | (unfold streamSend curWrite; split_ifs <;> rfl)

/-- A data byte does not change FAULT. -/
@[simp] theorem byteClockService_fault (b : Byte) (s : State) : (byteClockService b s).fault = s.fault := by
  unfold byteClockService
  split <;> first | rfl | (unfold streamFetch curRead; split_ifs <;> rfl) | (unfold streamSend curWrite; split_ifs <;> rfl)

/-- A data byte does not change the parameters. -/
@[simp] theorem byteClockService_cfg (b : Byte) (s : State) : (byteClockService b s).cfg = s.cfg := by
  unfold byteClockService
  split <;> first | rfl | (unfold streamFetch curRead; split_ifs <;> rfl) | (unfold streamSend curWrite; split_ifs <;> rfl)

/-- A data byte does not change the pending flags. -/
theorem byteClockService_pending (b : Byte) (s : State) :
    (byteClockService b s).sendPending = s.sendPending ∧ (byteClockService b s).recvPending = s.recvPending := by
  unfold byteClockService
  split <;> first
    | exact ⟨rfl, rfl⟩
    | (unfold streamFetch curRead; split_ifs <;> exact ⟨rfl, rfl⟩)
    | (unfold streamSend curWrite; split_ifs <;> exact ⟨rfl, rfl⟩)

/-- A data byte keeps a quiet state quiet. -/
theorem byteClockService_quiet {s : State} (hq : Quiet s) (b : Byte) : Quiet (byteClockService b s) := by
  unfold byteClockService
  split <;> first
    | exact hq
    | (unfold streamFetch curRead; split_ifs <;> exact hq)
    | (unfold streamSend curWrite; split_ifs <;> exact hq)

/-- `CurInc()` keeps the validity of the cursor. -/
theorem curInc_keeps_valid (s : State) : (curInc s).cursor.valid = s.cursor.valid := by
  simp only [curInc_cursor]
  split_ifs with h
  · exact h.symm
  · rfl

/-! ### One service -/

/-- All that one service can do. -/
theorem service_cases {src : Source} {s t : State} (h : service src s = .next t) :
    t = breachService s ∨ t = overrunService s ∨ t = edgeService s ∨
    (s.phase = .cmd ∧ ∃ i l, exec i { s with bytePend := false, inputs := l } = .next t) ∨
    (s.phase = .cmd ∧ t = readCommand (hi7Of s.rxdata) { s with bytePend := false }) ∨
    (s.phase = .addrLo ∧ t = readAddrLow s.rxdata { s with bytePend := false }) ∨
    (s.phase = .stream ∧ t = byteClockService s.rxdata { s with bytePend := false }) ∨
    t = { s with bytePend := false } := by
  cases src with
  | breach => cases h; exact .inl rfl
  | overrun => cases h; exact .inr (.inl rfl)
  | edge => cases h; exact .inr (.inr (.inl rfl))
  | byte =>
    have h5 : s.phase = .cmd ∨ s.phase = .addrLo ∨ s.phase = .stream ∨ s.phase = .idle ∨ s.phase = .halt := by
      cases s.phase <;> simp
    rcases h5 with hp | hp | hp | hp | hp
    · have he : service .byte s = commandService { s with bytePend := false } := by simp [service, byteService, hp]
      rw [he] at h
      rcases commandService_cases { s with bytePend := false } with ⟨i, l, hi⟩ | hi
      · rw [hi] at h
        exact .inr (.inr (.inr (.inl ⟨hp, i, l, h⟩)))
      · rw [hi] at h
        cases h
        exact .inr (.inr (.inr (.inr (.inl ⟨hp, rfl⟩))))
    · have he : service .byte s = .next (readAddrLow s.rxdata { s with bytePend := false }) := by
        simp [service, byteService, hp]
      rw [he] at h
      cases h
      exact .inr (.inr (.inr (.inr (.inr (.inl ⟨hp, rfl⟩)))))
    · have he : service .byte s = .next (byteClockService s.rxdata { s with bytePend := false }) := by
        simp [service, byteService, hp]
      rw [he] at h
      cases h
      exact .inr (.inr (.inr (.inr (.inr (.inr (.inl ⟨hp, rfl⟩))))))
    all_goals
      have he : service .byte s = .next { s with bytePend := false } := by simp [service, byteService, hp]
      rw [he] at h
      cases h
      exact .inr (.inr (.inr (.inr (.inr (.inr (.inr rfl))))))

/-! ### What every part of a step keeps, a step keeps -/

/-- A relation every service keeps is kept by the arbiter. -/
theorem arbitrate_rel {R : State → State → Prop} (refl : ∀ s, R s s) (trans : ∀ {a b c}, R a b → R b c → R a c)
    (hs : ∀ src s t, arbiter s = some src → service src s = .next t → R s t) {n : Nat} {s t : State}
    (h : arbitrate n s = .next t) : R s t := by
  induction n generalizing s with
  | zero =>
    have hst : s = t := by simpa [arbitrate] using h
    subst hst
    exact refl _
  | succ n ih =>
    cases ha : arbiter s with
    | none =>
      simp only [arbitrate, ha] at h
      cases h
      exact refl _
    | some src =>
      rw [arbitrate_of_pick' ha] at h
      obtain ⟨u, hu, hu'⟩ := andThen_eq_next h
      exact trans (hs _ _ _ ha hu) (ih hu')

/-- A relation the presentation of each event of an instant keeps is kept by the instant. -/
theorem presentAll_rel {R : State → State → Prop} (refl : ∀ s, R s s) (trans : ∀ {a b c}, R a b → R b c → R a c)
    {es : Instant} (hp : ∀ e ∈ es, ∀ s t, present e s = .next t → R s t) {s t : State}
    (h : presentAll es s = .next t) : R s t := by
  induction es generalizing s with
  | nil => cases h; exact refl _
  | cons e es ih =>
    obtain ⟨u, hu, hu'⟩ := andThen_eq_next h
    exact trans (hp e (by simp) _ _ hu) (ih (fun e he => hp e (by simp [he])) hu')

/-- A relation that the events of the next instant and every service keep is kept by the step. -/
theorem step_rel {R : State → State → Prop} (refl : ∀ s, R s s) (trans : ∀ {a b c}, R a b → R b c → R a c)
    (hi : ∀ (s : State) l, R s { s with inputs := l }) {s t : State}
    (hp : ∀ now later, s.inputs = now :: later → ∀ e ∈ now, ∀ s t, present e s = .next t → R s t)
    (hs : ∀ src s t, arbiter s = some src → service src s = .next t → R s t) (h : step s = .next t) : R s t := by
  cases hin : s.inputs with
  | nil =>
    simp only [step, serviceNextInstant, hin] at h
    exact arbitrate_rel refl trans hs h
  | cons now later =>
    rw [step_cons hin] at h
    obtain ⟨u, hu, hu'⟩ := andThen_eq_next h
    exact trans (hi s later) (trans (presentAll_rel refl trans (hp _ _ hin) hu) (arbitrate_rel refl trans hs hu'))

end Sys2Proof.Machine
end

