-- ==== Sys2Proof/Tests/Slice0.lean ====
section
/-! SUPPORT. Tests: ill-formed terms, words written from the encodings of 30_encoding.md, single steps of the vectors of
95_test_vectors.md (its test configuration CFG_T), and for every statement with hypotheses a state that meets them. -/

namespace Sys2Proof.Tests

open Sys2Proof Sys2Proof.Machine

/-! ### Small states -/

/-- The reset state with the vectors' configuration and the reference environment. -/
def idle : State := State.resetWith Config.testValues Env.env0

/-- The environment of a test: ENV0 with some cells and the answers of the queue calls. -/
def envOf (mem : Memory) (send recv : Option Addr) : Env :=
  { Env.env0 with mem := mem, sendGrant := send, recvGrant := recv }

/-- A transfer is open, the command byte is awaited. -/
def opened (e : Env) (inputs : List Instant) : State :=
  { idle with phase := .cmd, selected := true, env := e, inputs := inputs }

/-- The low byte of a READ is awaited. -/
def lowAwaited (ahi : Page) (inputs : List Instant) : State :=
  { idle with phase := .addrLo, selected := true, ahi := ahi, txdata := 0xAA#8, inputs := inputs }

/-- A data phase is open. -/
def streaming (op : Op) (valid : Bool) (a : Addr) (inputs : List Instant) : State :=
  { idle with
    phase := .stream, selected := true, byteIe := true, op := op, cursor := { valid := valid, addr := a },
    inputs := inputs }

/-- The sampler runs and stands on channel `i`, with the vectors' threshold 0x0800. -/
def sampling (i : Fin 3) (inputs : List Instant) : State :=
  { idle with
    samplerRun := true, seqIdx := i, sa := { idle.sa with threshold := 0x0800 }, inputs := inputs }

/-- The RESET command has been executed. -/
def halted (inputs : List Instant) : State := { idle with phase := .halt, selected := true, inputs := inputs }

/-- The state a step ends in. -/
def nextOf (o : Host.Outcome State Fault Refusal) : Option State :=
  match o with
  | .next t => some t
  | .fault _ => none
  | .refused _ => none

/-- The refusal a step ends in. -/
def refusalOf (o : Host.Outcome State Fault Refusal) : Option Refusal :=
  match o with
  | .next _ => none
  | .fault _ => none
  | .refused r => some r

/-! ### Well-formedness: an ill-formed term for each check -/

theorem test_wf_test0to7 : (Instr.test0to7 7#4).wf = true ∧ (Instr.test0to7 8#4).wf = false := by decide
theorem test_wf_test8to11 : (Instr.test8to11 8#4).wf = true ∧ (Instr.test8to11 7#4).wf = false := by decide
theorem test_wf_test8to11_high : (Instr.test8to11 11#4).wf = true ∧ (Instr.test8to11 12#4).wf = false := by decide
theorem test_wf_test12to13 : (Instr.test12to13 12#4).wf = true ∧ (Instr.test12to13 11#4).wf = false := by decide
theorem test_wf_test12to13_high : (Instr.test12to13 13#4).wf = true ∧ (Instr.test12to13 14#4).wf = false := by decide
theorem test_wf_unsup6to7 : (Instr.unsup6to7 6#4 0#4).wf = true ∧ (Instr.unsup6to7 5#4 0#4).wf = false := by decide
theorem test_wf_unsup6to7_high : (Instr.unsup6to7 7#4 15#4).wf = true ∧ (Instr.unsup6to7 8#4 0#4).wf = false := by
  decide

/-! ### Decoding: words written bit by bit from R92, R93, R97 and opcode_table.json; boundary bytes of V-ENC-1 -/

theorem test_decode_read : decode [0b10010010#8, 0b00110100#8] = .ok (.read 0b0010010#7 0b00110100#8, []) := by decide
theorem test_decode_read_near_reset : decode [0b11001111#8, 0b00000000#8] = .ok (.read 0x4F#7 0x00#8, []) := by decide
theorem test_decode_send : decode [0b00001111#8] = .ok (.send 0b1111#4, []) := by decide
theorem test_decode_enable : decode [0b00010101#8] = .ok (.enable 5#4, []) := by decide
theorem test_decode_disable : decode [0b00101111#8] = .ok (.disable 15#4, []) := by decide
theorem test_decode_recv : decode [0b00111010#8] = .ok (.recv 0b1010#4, []) := by decide
theorem test_decode_reset : decode [0b01001111#8] = .ok (.reset, []) := by decide
theorem test_decode_test0to7 : decode [0b01000111#8] = .ok (.test0to7 7#4, []) := by decide
theorem test_decode_test8to11 : decode [0b01001011#8] = .ok (.test8to11 11#4, []) := by decide
theorem test_decode_test12to13 : decode [0b01001100#8] = .ok (.test12to13 12#4, []) := by decide
theorem test_decode_test14 : decode [0b01001110#8] = .ok (.test14, []) := by decide
theorem test_decode_unsup5 : decode [0b01010000#8] = .ok (.unsup5 0#4, []) := by decide
theorem test_decode_unsup6 : decode [0b01101010#8] = .ok (.unsup6to7 6#4 10#4, []) := by decide
theorem test_decode_unsup7 : decode [0b01111111#8] = .ok (.unsup6to7 7#4 15#4, []) := by decide
theorem test_decode_short : decode [0b10000000#8] = .error .missingLowByte ∧ decode [] = .error .noCommandByte := by
  decide

/-- V-ENC-3. -/
theorem test_read_address : readAddress 0x12#7 0x34#8 = 0x1234#15 ∧ readAddress 0x7F#7 0x00#8 = 0x7F00#15 := by decide

/-- The numbering of opcode_table.json: the second byte of READ is bits 15..8. -/
theorem test_table_words :
    decodeTableWord 16 0x3492 = some (.read 0x12#7 0x34#8) ∧ decodeTableWord 8 0x92 = some (.read 0x12#7 0x00#8) ∧
    decodeTableWord 8 0x00 = some (.send 0#4) ∧ decodeTableWord 8 0x1F = some (.enable 15#4) ∧
    decodeTableWord 8 0x20 = some (.disable 0#4) ∧ decodeTableWord 8 0x3F = some (.recv 15#4) ∧
    decodeTableWord 8 0x4F = some .reset ∧ decodeTableWord 8 0x40 = some (.test0to7 0#4) ∧
    decodeTableWord 8 0x48 = some (.test8to11 8#4) ∧ decodeTableWord 8 0x4D = some (.test12to13 13#4) ∧
    decodeTableWord 8 0x4E = some .test14 ∧ decodeTableWord 8 0x5F = some (.unsup5 15#4) ∧
    decodeTableWord 8 0x60 = some (.unsup6to7 6#4 0#4) ∧ decodeTableWord 4 0x0 = none := by decide

/-- The header bytes as they stand on the wire decode to the same instruction. -/
theorem test_header_bytes :
    headerOf (wordBytes 16 0x3492) = [0x92#8, 0x34#8] ∧ headerOf (wordBytes 8 0x4F) = [0x4F#8] := by decide

/-! ### One step after reset, as the host runs it -/

/-- The next step runs the command: PHASE and OP as its command service leaves them. -/
def runsAs (nbits w : Nat) (p : Phase) (op : Op) : Bool :=
  match nextOf (step (State.reset.withFetchWord nbits w)) with
  | some t => decide (t.phase = p) && decide (t.op = op)
  | none => false

theorem test_first_read : runsAs 16 0x2380 .stream .read = true := by decide
theorem test_first_send : runsAs 8 0x00 .stream .send = true := by decide
theorem test_first_enable : runsAs 8 0x15 .stream .enable = true := by decide
theorem test_first_disable : runsAs 8 0x2F .stream .disable = true := by decide
theorem test_first_recv : runsAs 8 0x30 .stream .recv = true := by decide
theorem test_first_reset : runsAs 8 0x4F .halt .none = true := by decide
theorem test_first_test0to7 : runsAs 8 0x40 .stream .test = true := by decide
theorem test_first_test8to11 : runsAs 8 0x48 .stream .test = true := by decide
theorem test_first_test12to13 : runsAs 8 0x4C .stream .test = true := by decide
theorem test_first_test14 : runsAs 8 0x4E .stream .test = true := by decide
theorem test_first_unsup5 : runsAs 8 0x50 .stream .unsup = true := by decide
theorem test_first_unsup6to7 : runsAs 8 0x60 .stream .unsup = true := by decide

/-! ### Single steps of the vectors -/

/-- E1, steps 2 and 3. -/
theorem test_E1_header :
    (nextOf (step (opened (envOf [(0x23, 0x11#8)] none none) [[.byte 0x80#8], [.byte 0x23#8]]))).map
      (fun t => (t.txdata, t.cursor)) = some (0x11#8, { valid := true, addr := 0x0024#15 }) := by decide

/-- V-RD-2: the top of the address space. -/
theorem test_VRD2_top :
    (nextOf (step (opened (envOf [(0x7FFF, 0xEE#8)] none none) [[.byte 0xFF#8], [.byte 0xFF#8]]))).map
      (fun t => (t.txdata, t.cursor)) = some (0xEE#8, { valid := true, addr := 0x0000#15 }) := by decide

/-- V-FR-2: the READ header without its low byte. -/
theorem test_VFR2_command :
    (nextOf (step (opened (envOf [] none none) [[.byte 0x92#8]]))).map
      (fun t => (t.phase, t.ahi, t.txdata, t.byteIe)) = some (.addrLo, 0x12#7, 0xAA#8, false) := by decide

/-- V-SD-1: a data byte at 0x0101. -/
theorem test_VSD1_byte :
    (nextOf (step (streaming .send true 0x0101#15 [[.byte 0xAD#8]]))).map (fun t => (t.trace, t.cursor.addr)) =
      some ([.exchange 0xAD#8 0x00#8, .call (.registerWrite 0x0101#15 0xAD#8)], 0x0102#15) := by decide

/-- V-SD-4: a byte on STATUS_ADDR is dropped. -/
theorem test_VSD4_overlay :
    (nextOf (step (streaming .send true 0x0000#15 [[.byte 0x03#8]]))).map (fun t => (t.trace, t.cursor.addr)) =
      some ([.exchange 0x03#8 0x00#8], 0x0001#15) := by decide

/-- V-SD-2: no grant. -/
theorem test_VSD2_command :
    (nextOf (step (opened (envOf [] none none) [[.byte 0x0F#8]]))).map (fun t => (t.txdata, t.cursor.valid, t.sendPending)) =
      some (0xA5#8, false, false) := by decide

/-- ENV0's canonical form: writing 0x00 unlists the cell, which reads 0x00 still. -/
theorem test_env0_write :
    (memWrite 0x0100#15 0x00#8 (opened (envOf [(0x100, 0x77#8)] none none) [])).env.mem = [] ∧
    cell (memWrite 0x0100#15 0x00#8 (opened (envOf [(0x100, 0x77#8)] none none) [])) 0x0100#15 = some 0x00#8 := by
  decide

/-- V-RV-1: the prefetch of the first byte, and the last fetch, at 0x0203, which finds the 0x00 that ENV0 holds in every
cell not given. -/
theorem test_VRV1 :
    (nextOf (step (opened (envOf [(0x200, 0x42#8)] none (some 0x0200#15)) [[.byte 0x30#8]]))).map
      (fun t => (t.txdata, t.cursor.addr, t.recvPending)) = some (0x42#8, 0x0201#15, true) ∧
    (nextOf (step { streaming .recv true 0x0203#15 [[.byte 0x00#8]] with env := envOf [(0x202, 0x44#8)] none none })).map
      (fun t => (t.txdata, t.cursor.addr, t.trace.getLast?)) =
      some (0x00#8, 0x0204#15, some (.call (.registerRead 0x0203#15 0x00#8))) := by decide

/-- V-RV-2: TXDATA stays stale without a message. A grant at STATUS_ADDR reads RECV_PENDING as it was
before the service (R11, log 24). -/
theorem test_VRV2_and_status :
    (nextOf (step { opened (envOf [] none none) [[.byte 0x3A#8]] with txdata := 0x5C#8 })).map
      (fun t => (t.txdata, t.recvPending)) = some (0x5C#8, false) ∧
    (nextOf (step (opened (envOf [] none (some 0x0000#15)) [[.byte 0x30#8]]))).map (fun t => (t.txdata, t.recvPending, t.trace)) =
      some (0x00#8, true, [.exchange 0x30#8 0x00#8, .call (.recvFront (some 0x0000#15))]) := by decide

/-- V-FN-1. -/
theorem test_VFN1 :
    (nextOf (step (opened (envOf [] none none) [[.byte 0x15#8]]))).map (fun t => (t.env.funcEn, t.txdata)) =
      some (0x0020#16, 0xA5#8) := by decide

/-- V-FN-4: `function_disable(15)` with FUNC_EN = 0xFFFF before. -/
theorem test_VFN4 :
    (nextOf (step (opened { envOf [] none none with funcEn := 0xFFFF#16 } [[.byte 0x2F#8]]))).map
      (fun t => (t.env.funcEn, t.op)) = some (0x7FFF#16, .disable) := by decide

/-- V-RS-1. -/
theorem test_VRS1 :
    (nextOf (step (opened (envOf [] none none) [[.byte 0x4F#8]]))).map (fun t => (t.phase, t.env.resetReq)) =
      some (.halt, true) := by decide

/-- V-RS-1: a transfer after RESET is ignored. -/
theorem test_VRS1_ignored :
    (nextOf (step (halted [[.csRise]]))).map (fun t => (t.phase, t.selected)) = some (.halt, true) := by decide

/-- V-TS-1: the command, then the first echoed byte. -/
theorem test_VTS1_command :
    (nextOf (step (opened (envOf [] none none) [[.byte 0x40#8]]))).map (fun t => (t.txdata, t.cursor.addr)) =
      some (0xA5#8, 0x7F00#15) := by decide

/-- V-TS-2: the fall-through of 0x4E. -/
theorem test_VTS2_command :
    (nextOf (step (opened (envOf [] none none) [[.byte 0x4E#8]]))).map (fun t => (t.txdata, t.op)) =
      some (0xA5#8, .test) := by decide

/-- V-TS-3: the cursor wraps. -/
theorem test_VTS3_wrap :
    (nextOf (step (streaming .test true 0x7FFF#15 [[.byte 0x00#8]]))).map (fun t => (t.txdata, t.cursor.addr)) =
      some (0xFF#8, 0x0000#15) := by decide

/-- V-US-1 with a start TXDATA of 0x5C, and V-US-2. -/
theorem test_VUS1 :
    (nextOf (step { opened (envOf [] none none) [[.byte 0x50#8]] with txdata := 0x5C#8 })).map
      (fun t => (t.txdata, t.cursor.valid)) = some (0x00#8, false) := by decide
theorem test_VUS2 :
    (nextOf (step (opened (envOf [] none none) [[.byte 0x7F#8]]))).map (fun t => (t.txdata, t.op)) =
      some (0x00#8, .unsup) := by decide

/-- V-AN-2, the breaching conversion. -/
theorem test_VAN2 :
    (nextOf (step (sampling 1 [[.conv 0x0801]]))).map (fun t => (t.sa.isense, t.sa.snapshot, t.fault, t.trace)) =
      some (0x0801, 0x0801, true, [.call .powerFault]) := by decide

/-- V-AN-3: equal is not a breach. -/
theorem test_VAN3 :
    (nextOf (step (sampling 1 [[.conv 0x0800]]))).map (fun t => (t.sa.isense, t.sa.snapshot, t.fault)) =
      some (0x0800, 0, false) := by decide

/-- V-PR-3: breach and overrun at one instant. -/
theorem test_VPR3 :
    (nextOf (step (sampling 1 [[.conv 0x0900, .overrun]]))).map (fun t => (t.sa.snapshot, t.samplerRun, t.seqIdx)) =
      some (0x0900, false, 2) := by decide

/-- A breach, and an overrun, listed before SAMPLER_START in its instant is serviced, then the sampler starts (log 25). -/
theorem test_sampler_start_settles :
    (nextOf (step (sampling 1 [[.conv 0x0801, .samplerStart]]))).map (fun t => (t.sa.snapshot, t.fault, t.seqIdx, t.trace)) =
      some (0x0801, true, 0, [.call .powerFault]) ∧
    (nextOf (step (sampling 2 [[.overrun, .samplerStart]]))).map (fun t => (t.fault, t.samplerRun, t.seqIdx, t.trace)) =
      some (true, true, 0, []) := by decide

/-- V-PR-1: a byte and the rising edge at one instant, in a granted SEND. -/
theorem test_VPR1 :
    (nextOf (step { streaming .send true 0x0101#15 [[.byte 0xAD#8, .csRise]] with sendPending := true })).map
      (fun t => (t.trace, t.cursor.addr)) =
      some ([.exchange 0xAD#8 0x00#8, .call .sendExecute], 0x0101#15) := by decide

/-- V-RD-4: the overlay of the Sample Array, low byte first. -/
theorem test_VRD4_overlay :
    memReadByte { idle with sa := { idle.sa with isense := 0x0ABC } } 0x0012#15 = 0xBC#8 ∧
    memReadByte { idle with sa := { idle.sa with isense := 0x0ABC } } 0x0013#15 = 0x0A#8 := by decide

/-- V-RT-1: reset in the middle of a granted SEND. -/
theorem test_VRT1 :
    (nextOf (step { streaming .send true 0x0101#15 [[.resetIn]] with sendPending := true, fault := true })).map
      (fun t => (t.phase, t.fault, t.sa.threshold, t.trace)) = some (.idle, false, 0xFFFF, []) := by decide

/-- Ill-formed host sequences (R121, R132, R137). -/
theorem test_refusals :
    refusalOf (step { idle with inputs := [[.byte 0x00#8]] }) = some .byteWhileDeselected ∧
    refusalOf (step (opened Env.initial [[.csFall]])) = some .fallWhileSelected ∧
    refusalOf (step { idle with inputs := [[.csRise]] }) = some .riseWhileDeselected := by decide

/-- R27: the eighth clock period completes the byte. -/
theorem test_eighth_clock_period :
    (nextOf (step { opened Env.initial [[.sck true]] with bitcnt := 7#3, shift := 0x27#8, misoBits := 0x55#8 })).map
      (fun t => (t.rxdata, t.bitcnt, t.phase, t.trace.length)) = some (0x4F#8, 0#3, .halt, 2) := by decide

/-- R296, U8: a byte time that begins before the service of the byte before it is refused, also one that begins by a single
clock period at the instant of a READ's command byte, whatever byte comes next. -/
theorem test_byte_time_begins_early :
    refusalOf (step (streaming .send true 0x0101#15 [[.byte 0xAD#8, .sck true]])) = some .byteNotYetServiced ∧
    refusalOf (step (opened Env.env0 [[.byte 0x80#8, .sck false], [.byte 0x23#8]])) = some .byteNotYetServiced := by decide

/-! ### Witnesses: the hypotheses of each statement, met by a concrete state and operands -/

/-- The samples of the reset state fit their slots. -/
theorem idle_samplesFit : SamplesFit idle := ⟨by decide, by decide, by decide, by decide, by decide⟩

/-- A step that ends in a state ends in some next state. -/
theorem exists_next {o : Host.Outcome State Fault Refusal} (h : (nextOf o).isSome = true) : ∃ t, o = .next t := by
  cases o with
  | next t => exact ⟨t, rfl⟩
  | fault r => exact nomatch r
  | refused r => simp [nextOf] at h

/-- An opened transfer has the invariant, whatever the environment answers and whatever comes next. -/
theorem opened_invariant (e : Env) (h : e.mem.wf e.blank = true) (inputs : List Instant) :
    MachineInvariant (opened e inputs) where
  byteIeIffStream := by simp [opened, idle, State.resetWith]
  deselectedIffIdle := by simp [opened, idle, State.resetWith]
  onePending := by simp [opened, idle, State.resetWith]
  sendPendingInSend := by simp [opened, idle, State.resetWith]
  recvPendingInRecv := by simp [opened, idle, State.resetWith]
  headerBlank := by simp [opened, idle, State.resetWith]
  streamHasOp := by simp [opened, idle, State.resetWith]
  cursorInStream := by simp [opened, idle, State.resetWith]
  quiet := ⟨rfl, rfl, rfl, rfl⟩
  serialCleared := by simp [opened, idle, State.resetWith]
  memoryCanonical := h
  samplesFit := idle_samplesFit
  overlaysPlaced := (by decide : Config.testValues.wf = true)

/-- A READ's data phase has the invariant. -/
theorem reading_invariant (a : Addr) (inputs : List Instant) : MachineInvariant (streaming .read true a inputs) where
  byteIeIffStream := by simp [streaming, idle, State.resetWith]
  deselectedIffIdle := by simp [streaming, idle, State.resetWith]
  onePending := by simp [streaming, idle, State.resetWith]
  sendPendingInSend := by simp [streaming, idle, State.resetWith]
  recvPendingInRecv := by simp [streaming, idle, State.resetWith]
  headerBlank := by simp [streaming, idle, State.resetWith]
  streamHasOp := by simp [streaming, idle, State.resetWith]
  cursorInStream := by simp [streaming, idle, State.resetWith]
  quiet := ⟨rfl, rfl, rfl, rfl⟩
  serialCleared := by simp [streaming, idle, State.resetWith]
  memoryCanonical := rfl
  samplesFit := idle_samplesFit
  overlaysPlaced := (by decide : Config.testValues.wf = true)

/-- A READ waiting for its low byte has the invariant. -/
theorem lowAwaited_invariant (p : Page) (inputs : List Instant) : MachineInvariant (lowAwaited p inputs) where
  byteIeIffStream := by simp [lowAwaited, idle, State.resetWith]
  deselectedIffIdle := by simp [lowAwaited, idle, State.resetWith]
  onePending := by simp [lowAwaited, idle, State.resetWith]
  sendPendingInSend := by simp [lowAwaited, idle, State.resetWith]
  recvPendingInRecv := by simp [lowAwaited, idle, State.resetWith]
  headerBlank := by simp [lowAwaited, idle, State.resetWith]
  streamHasOp := by simp [lowAwaited, idle, State.resetWith]
  cursorInStream := by simp [lowAwaited, idle, State.resetWith]
  quiet := ⟨rfl, rfl, rfl, rfl⟩
  serialCleared := by simp [lowAwaited, idle, State.resetWith]
  memoryCanonical := rfl
  samplesFit := idle_samplesFit
  overlaysPlaced := (by decide : Config.testValues.wf = true)

/-- A block in HALT has the invariant. -/
theorem halted_invariant (inputs : List Instant) : MachineInvariant (halted inputs) where
  byteIeIffStream := by simp [halted, idle, State.resetWith]
  deselectedIffIdle := by simp [halted, idle, State.resetWith]
  onePending := by simp [halted, idle, State.resetWith]
  sendPendingInSend := by simp [halted, idle, State.resetWith]
  recvPendingInRecv := by simp [halted, idle, State.resetWith]
  headerBlank := by simp [halted, idle, State.resetWith]
  streamHasOp := by simp [halted, idle, State.resetWith]
  cursorInStream := by simp [halted, idle, State.resetWith]
  quiet := ⟨rfl, rfl, rfl, rfl⟩
  serialCleared := by simp [halted, idle, State.resetWith]
  memoryCanonical := rfl
  samplesFit := idle_samplesFit
  overlaysPlaced := (by decide : Config.testValues.wf = true)

/-- The idle block has the invariant. -/
theorem idle_invariant (inputs : List Instant) : MachineInvariant ({ idle with inputs := inputs }) where
  byteIeIffStream := by simp [idle, State.resetWith]
  deselectedIffIdle := by simp [idle, State.resetWith]
  onePending := by simp [idle, State.resetWith]
  sendPendingInSend := by simp [idle, State.resetWith]
  recvPendingInRecv := by simp [idle, State.resetWith]
  headerBlank := by simp [idle, State.resetWith]
  streamHasOp := by simp [idle, State.resetWith]
  cursorInStream := by simp [idle, State.resetWith]
  quiet := ⟨rfl, rfl, rfl, rfl⟩
  serialCleared := by simp [idle, State.resetWith]
  memoryCanonical := rfl
  samplesFit := idle_samplesFit
  overlaysPlaced := (by decide : Config.testValues.wf = true)

/-- An opened transfer awaits its command. -/
theorem opened_atCommand (e : Env) (inputs : List Instant) : AtCommand (opened e inputs) :=
  ⟨rfl, rfl, rfl, rfl, rfl, rfl, rfl⟩

/-- A READ awaits its low byte. -/
theorem lowAwaited_atLowByte (p : Page) (inputs : List Instant) : AtLowByte (lowAwaited p inputs) :=
  ⟨rfl, rfl, rfl, rfl, rfl, rfl, rfl⟩

/-- A data phase is a data phase. -/
theorem streaming_atData (op : Op) (v : Bool) (a : Addr) (inputs : List Instant) :
    AtData (streaming op v a inputs) := ⟨rfl, rfl, rfl, rfl, rfl, rfl, rfl, rfl⟩

/-- The bytes at both ends of every range of R97 meet the range's hypothesis and no other. -/
theorem witness_CommandByteClassified :
    0x80 ≤ (0x80#8).toNat ∧ 0x80 ≤ (0xFF#8).toNat ∧ (0x00#8).toNat ≤ 0x0F ∧ (0x0F#8).toNat ≤ 0x0F ∧
    (0x10 ≤ (0x10#8).toNat ∧ (0x1F#8).toNat ≤ 0x1F) ∧ (0x20 ≤ (0x20#8).toNat ∧ (0x2F#8).toNat ≤ 0x2F) ∧
    (0x30 ≤ (0x30#8).toNat ∧ (0x3F#8).toNat ≤ 0x3F) ∧ (0x4F#8).toNat = 0x4F ∧
    (0x40 ≤ (0x40#8).toNat ∧ (0x4E#8).toNat ≤ 0x4E) ∧ (0x50 ≤ (0x50#8).toNat ∧ (0x7F#8).toNat ≤ 0x7F) ∧
    decode [0x4F#8] = .ok (.reset, []) := by decide

theorem witness_HeaderLengthFromBit7 : (0x80#8).getLsbD 7 = true ∧ (0x7F#8).getLsbD 7 = false := by decide

/-- Every row at the ends of its operands' range. -/
theorem witness_DecodeOfEncode :
    (Instr.read 0x7F#7 0xFF#8).wf ∧ (Instr.send 15#4).wf ∧ (Instr.enable 0#4).wf ∧ (Instr.disable 15#4).wf ∧
    (Instr.recv 0#4).wf ∧ Instr.reset.wf ∧ (Instr.test0to7 0#4).wf ∧ (Instr.test0to7 7#4).wf ∧
    (Instr.test8to11 8#4).wf ∧ (Instr.test8to11 11#4).wf ∧ (Instr.test12to13 12#4).wf ∧ (Instr.test12to13 13#4).wf ∧
    Instr.test14.wf ∧ (Instr.unsup5 15#4).wf ∧ (Instr.unsup6to7 6#4 0#4).wf ∧ (Instr.unsup6to7 7#4 15#4).wf := by decide

theorem witness_EncodeOfDecode : decode [0xFF#8, 0x00#8, 0x01#8] = .ok (.read 0x7F#7 0x00#8, [0x01#8]) := by decide

theorem witness_StepRunsDecodedCommand_oneByte :
    AtCommand (opened Env.initial [[.byte 0x4E#8]]) ∧
    (opened Env.initial [[.byte 0x4E#8]]).inputs = [.byte 0x4E#8] :: [] ∧ decode [0x4E#8] = .ok (.test14, []) :=
  ⟨opened_atCommand _ _, rfl, by decide⟩

theorem witness_StepRunsDecodedCommand_read :
    AtCommand (opened Env.initial [[.byte 0xFF#8], [.byte 0x00#8]]) ∧
    (opened Env.initial [[.byte 0xFF#8], [.byte 0x00#8]]).inputs = [.byte 0xFF#8] :: [.byte 0x00#8] :: [] ∧
    decode [0xFF#8, 0x00#8] = .ok (.read 0x7F#7 0x00#8, []) := ⟨opened_atCommand _ _, rfl, by decide⟩

theorem witness_ReadHeaderInTwoServices :
    AtCommand (opened Env.initial [[.byte 0x80#8], [.byte 0x23#8], [.csRise]]) ∧ (0x80#8).getLsbD 7 = true ∧
    (opened Env.initial [[.byte 0x80#8], [.byte 0x23#8], [.csRise]]).inputs =
      [.byte 0x80#8] :: [.byte 0x23#8] :: [[.csRise]] := ⟨opened_atCommand _ _, by decide, rfl⟩

theorem witness_ReadCommandWaitsForLowByte :
    AtCommand (opened Env.initial [[.byte (1#1 ++ 0x12#7)], [.csRise]]) ∧
    (opened Env.initial [[.byte (1#1 ++ 0x12#7)], [.csRise]]).inputs = [.byte (1#1 ++ 0x12#7)] :: [[.csRise]] ∧
    waitingByte [[.csRise]] = none := ⟨opened_atCommand _ _, rfl, rfl⟩

theorem witness_LowByteCompletesRead :
    AtLowByte (lowAwaited 0x7F#7 [[.byte 0xFF#8]]) ∧
    (lowAwaited 0x7F#7 [[.byte 0xFF#8]]).inputs = [.byte 0xFF#8] :: [] ∧
    (0x7FFF#15 : Addr) = (lowAwaited 0x7F#7 [[.byte 0xFF#8]]).ahi ++ 0xFF#8 :=
  ⟨⟨rfl, rfl, rfl, rfl, rfl, rfl, rfl⟩, rfl, by decide⟩

theorem witness_RestWithoutInputs : Quiet (opened Env.initial []) ∧ (opened Env.initial []).inputs = [] :=
  ⟨⟨rfl, rfl, rfl, rfl⟩, rfl⟩

/-- The first byte of slot 0 and the last byte of slot 4. -/
theorem witness_DecoderAnswersOverlays :
    idle.cfg.wf = true ∧ (0 ≤ 4 ∧ 0 < idle.cfg.sampleBytes) ∧ (4 ≤ 4 ∧ 1 < idle.cfg.sampleBytes) := by decide

/-- The addresses on both sides of the Sample Array, and a written cell. -/
theorem witness_DecoderAsksRegisterFile :
    (0x000F#15 ≠ idle.cfg.statusAddr ∧ ¬ (idle.cfg.sampleBase.toNat ≤ (0x000F#15).toNat ∧
      (0x000F#15).toNat < idle.cfg.sampleBase.toNat + 5 * idle.cfg.sampleBytes)) ∧
    (0x001A#15 ≠ idle.cfg.statusAddr ∧ ¬ (idle.cfg.sampleBase.toNat ≤ (0x001A#15).toNat ∧
      (0x001A#15).toNat < idle.cfg.sampleBase.toNat + 5 * idle.cfg.sampleBytes)) ∧
    cell (opened (envOf [(0x1A, 0x77#8)] none none) []) 0x001A#15 = some 0x77#8 := by decide

/-- ENV0's total MEM, one with another byte, a cell outside the overlays and not listed, and both cases of a write: the
cell itself and another one. -/
theorem witness_ReferenceEnvironmentIsTotal :
    idle.env.blank = some 0x00#8 ∧ inOverlay idle 0x7FFF#15 = false ∧ idle.env.mem.read? (0x7FFF#15 : Addr).toNat = none ∧
    cell { idle with env := { Env.env0 with blank := some 0xFF#8 } } 0x7FFF#15 = some 0xFF#8 ∧
    cell (memWrite 0x7FFF#15 0x55#8 idle) 0x7FFF#15 = some 0x55#8 ∧
    cell (memWrite 0x7FFF#15 0x55#8 idle) 0x0000#15 = some 0x00#8 := by decide

theorem witness_ReadHeader : (0x7FFF#15 : Addr) = 0x7F#7 ++ 0xFF#8 := by decide

theorem witness_SendCommand :
    (opened (envOf [] (some 0x7FFE#15) none) []).env.sendGrant = some 0x7FFE#15 ∧
    (opened (envOf [] none none) []).env.sendGrant = none := by decide

theorem witness_RecvCommand :
    (opened (envOf [] none (some 0x0200#15)) []).env.recvGrant = some 0x0200#15 ∧
    (opened (envOf [] none none) []).env.recvGrant = none := by decide

theorem witness_TestCommand : ∃ arg4, Instr.test14 = .test0to7 arg4 ∨ Instr.test14 = .test8to11 arg4 ∨
    Instr.test14 = .test12to13 arg4 ∨ Instr.test14 = .test14 := ⟨0#4, .inr (.inr (.inr rfl))⟩

theorem witness_UnsupportedCommand :
    ∃ opc arg4, Instr.unsup6to7 7#4 15#4 = .unsup5 arg4 ∨ Instr.unsup6to7 7#4 15#4 = .unsup6to7 opc arg4 :=
  ⟨7#4, 15#4, .inr rfl⟩

/-- ENABLE and DISABLE of the highest id complete, and another id exists. -/
theorem witness_FunctionControlIdempotent :
    (∃ t, exec (.enable 15#4) idle = .next t ∧ (∃ u, exec (.enable 15#4) t = .next u) ∧
      ∃ u, exec (.disable 15#4) t = .next u) ∧
    (∃ t, exec (.disable 15#4) idle = .next t) ∧ (0#4 ≠ 15#4) :=
  ⟨⟨_, rfl, ⟨_, rfl⟩, ⟨_, rfl⟩⟩, ⟨_, rfl⟩, by decide⟩

theorem witness_DataByteOfReadAndRecv :
    AtData (streaming .read true 0x7FFF#15 [[.byte 0x00#8]]) ∧
    (streaming .read true 0x7FFF#15 [[.byte 0x00#8]]).op = .read ∧
    (streaming .read true 0x7FFF#15 [[.byte 0x00#8]]).inputs = [.byte 0x00#8] :: [] ∧
    AtData (streaming .recv false 0x0000#15 [[.byte 0x00#8]]) ∧
    (streaming .recv false 0x0000#15 [[.byte 0x00#8]]).op = .recv ∧
    (streaming .recv false 0x0000#15 [[.byte 0x00#8]]).inputs = [.byte 0x00#8] :: [] ∧
    (streaming .read true 0x7FFF#15 [[.byte 0x00#8]]).cursor.valid = true ∧
    (streaming .recv false 0x0000#15 [[.byte 0x00#8]]).cursor.valid = false :=
  ⟨streaming_atData _ _ _ _, rfl, rfl, streaming_atData _ _ _ _, rfl, rfl, rfl, rfl⟩

/-- A data byte of a SEND at a cursor. -/
def sendingAt (valid : Bool) (a : Addr) : State := streaming .send valid a [[.byte 0xFF#8]]

/-- A cell, an overlay address, and no slot. -/
theorem witness_DataByteOfSend :
    (∀ v a, AtData (sendingAt v a) ∧ (sendingAt v a).op = .send ∧ (sendingAt v a).inputs = [.byte 0xFF#8] :: []) ∧
    ((sendingAt true 0x000F#15).cursor.valid = true ∧ inOverlay (sendingAt true 0x000F#15) 0x000F#15 = false) ∧
    ((sendingAt true 0x0010#15).cursor.valid = true ∧ inOverlay (sendingAt true 0x0010#15) 0x0010#15 = true) ∧
    (sendingAt false 0x0000#15).cursor.valid = false :=
  ⟨fun _ _ => ⟨streaming_atData _ _ _ _, rfl, rfl⟩, ⟨rfl, by decide⟩, ⟨rfl, by decide⟩, rfl⟩

theorem witness_DataByteOfTest :
    (AtData (streaming .test true 0x7FFF#15 [[.byte 0x00#8]]) ∧
      (streaming .test true 0x7FFF#15 [[.byte 0x00#8]]).op = .test ∧
      (streaming .test true 0x7FFF#15 [[.byte 0x00#8]]).inputs = [.byte 0x00#8] :: [] ∧
      (streaming .test true 0x7FFF#15 [[.byte 0x00#8]]).cursor.valid = true) ∧
    (AtData (streaming .test false 0x7FFF#15 [[.byte 0x00#8]]) ∧
      (streaming .test false 0x7FFF#15 [[.byte 0x00#8]]).op = .test ∧
      (streaming .test false 0x7FFF#15 [[.byte 0x00#8]]).inputs = [.byte 0x00#8] :: [] ∧
      (streaming .test false 0x7FFF#15 [[.byte 0x00#8]]).cursor.valid = false) :=
  ⟨⟨streaming_atData _ _ _ _, rfl, rfl, rfl⟩, ⟨streaming_atData _ _ _ _, rfl, rfl, rfl⟩⟩

theorem witness_DataByteWithoutDataPhase :
    (∀ op, AtData (streaming op false 0#15 [[.byte 0x00#8]]) ∧ (streaming op false 0#15 [[.byte 0x00#8]]).op = op ∧
      (streaming op false 0#15 [[.byte 0x00#8]]).inputs = [.byte 0x00#8] :: []) ∧
    (streaming .enable false 0#15 [[.byte 0x00#8]]).op = .enable ∧
    (streaming .disable false 0#15 [[.byte 0x00#8]]).op = .disable ∧
    (streaming .unsup false 0#15 [[.byte 0x00#8]]).op = .unsup ∧
    (streaming .none false 0#15 [[.byte 0x00#8]]).op = .none :=
  ⟨fun _ => ⟨streaming_atData _ _ _ _, rfl, rfl⟩, rfl, rfl, rfl, rfl⟩

theorem witness_FallingEdgeOpensTransfer :
    ({ idle with inputs := [[.csFall]] } : State).phase = .idle ∧ Quiet { idle with inputs := [[.csFall]] } ∧
    ({ idle with inputs := [[.csFall]] } : State).inputs = [.csFall] :: [] := ⟨rfl, ⟨rfl, rfl, rfl, rfl⟩, rfl⟩

/-- In CMD, in ADDR_LO, and in a data phase. -/
theorem witness_RisingEdgeFinalizes :
    ((opened Env.initial [[.csRise]]).phase = .cmd ∧ Quiet (opened Env.initial [[.csRise]]) ∧
      (opened Env.initial [[.csRise]]).inputs = [.csRise] :: []) ∧
    ((lowAwaited 0#7 [[.csRise]]).phase = .addrLo ∧ Quiet (lowAwaited 0#7 [[.csRise]]) ∧
      (lowAwaited 0#7 [[.csRise]]).inputs = [.csRise] :: []) ∧
    ((streaming .send true 0#15 [[.csRise]]).phase = .stream ∧ Quiet (streaming .send true 0#15 [[.csRise]]) ∧
      (streaming .send true 0#15 [[.csRise]]).inputs = [.csRise] :: []) :=
  ⟨⟨rfl, ⟨rfl, rfl, rfl, rfl⟩, rfl⟩, ⟨rfl, ⟨rfl, rfl, rfl, rfl⟩, rfl⟩, ⟨rfl, ⟨rfl, rfl, rfl, rfl⟩, rfl⟩⟩

/-- A command byte, a low byte and a data byte. -/
theorem witness_UnservicedByteIsDropped :
    (AtCommand (opened Env.env0 [[.byte 0x4F#8, .csRise]]) ∧
      (opened Env.env0 [[.byte 0x4F#8, .csRise]]).inputs = [.byte 0x4F#8, .csRise] :: []) ∧
    (AtLowByte (lowAwaited 0x12#7 [[.csRise, .byte 0x34#8]]) ∧
      (lowAwaited 0x12#7 [[.csRise, .byte 0x34#8]]).inputs = [.csRise, .byte 0x34#8] :: []) ∧
    (AtData (streaming .send true 0x0101#15 [[.byte 0xAD#8, .csRise]]) ∧
      (streaming .send true 0x0101#15 [[.byte 0xAD#8, .csRise]]).inputs = [.byte 0xAD#8, .csRise] :: []) :=
  ⟨⟨opened_atCommand _ _, rfl⟩, ⟨lowAwaited_atLowByte _ _, rfl⟩, ⟨streaming_atData _ _ _ _, rfl⟩⟩

theorem witness_HaltIgnoresEvents :
    (halted [[.byte 0x00#8, .csRise, .conv 5]]).phase = .halt ∧
    (halted [[.byte 0x00#8, .csRise, .conv 5]]).inputs = [.byte 0x00#8, .csRise, .conv 5] :: [] ∧
    (∀ e ∈ [Event.byte 0x00#8, .csRise, .conv 5], e ≠ .resetIn ∧ e.ofEnvironment = false) := by decide

theorem witness_ResetInRestoresRegisters : (halted [[.resetIn]]).inputs = [.resetIn] :: [] := rfl

/-- The idle block with one instant to come. -/
def idleWith (now : Instant) : State := { idle with inputs := [now] }

/-- Each clause in a state of its own. -/
theorem witness_IllFormedSequencesRefused :
    (∀ now, Quiet (idleWith now) ∧ (idleWith now).phase = .idle ∧ (idleWith now).inputs = now :: []) ∧
    (Quiet (opened Env.initial [[.csFall]]) ∧ (opened Env.initial [[.csFall]]).phase = .cmd ∧
      (opened Env.initial [[.csFall]]).inputs = [.csFall] :: []) ∧
    (∀ now, Quiet (opened Env.env0 [now]) ∧ AtCommand (opened Env.env0 [now]) ∧
      (opened Env.env0 [now]).inputs = now :: []) ∧
    (∀ now, Quiet (lowAwaited 0#7 [now]) ∧ AtLowByte (lowAwaited 0#7 [now]) ∧
      (lowAwaited 0#7 [now]).inputs = now :: []) ∧
    (∀ now, Quiet (streaming .read true 0#15 [now]) ∧ AtData (streaming .read true 0#15 [now]) ∧
      (streaming .read true 0#15 [now]).inputs = now :: []) :=
  ⟨fun _ => ⟨⟨rfl, rfl, rfl, rfl⟩, rfl, rfl⟩, ⟨⟨rfl, rfl, rfl, rfl⟩, rfl, rfl⟩,
    fun _ => ⟨⟨rfl, rfl, rfl, rfl⟩, opened_atCommand _ _, rfl⟩,
    fun _ => ⟨⟨rfl, rfl, rfl, rfl⟩, lowAwaited_atLowByte _ _, rfl⟩,
    fun _ => ⟨⟨rfl, rfl, rfl, rfl⟩, streaming_atData _ _ _ _, rfl⟩⟩

/-- A running sampler on channel `i` with one result to come. -/
def converting (i : Fin 3) (v : Nat) : State := sampling i [[.conv v]]

/-- A converting sampler is at work and quiet. -/
theorem converting_ready (i : Fin 3) (v : Nat) :
    Quiet (converting i v) ∧ (converting i v).phase ≠ .halt ∧ (converting i v).samplerRun = true ∧
    (converting i v).inputs = [.conv v] :: [] := ⟨⟨rfl, rfl, rfl, rfl⟩, by simp [converting, sampling, idle,
      State.resetWith], rfl, rfl⟩

/-- At the threshold itself there is no breach; on another channel there is none above it, up to the widest result. -/
theorem witness_ConversionStored :
    (0x0800 < 2 ^ (converting 1 0x0800).cfg.sampleW ∧
      ¬ ((converting 1 0x0800).seqIdx = 1 ∧ (converting 1 0x0800).sa.threshold < 0x0800)) ∧
    (0xFFFF < 2 ^ (converting 2 0xFFFF).cfg.sampleW ∧
      ¬ ((converting 2 0xFFFF).seqIdx = 1 ∧ (converting 2 0xFFFF).sa.threshold < 0xFFFF)) := by decide

/-- One above the threshold. -/
theorem witness_BreachServiced :
    Quiet (converting 1 0x0801) ∧ (converting 1 0x0801).phase ≠ .halt ∧ (converting 1 0x0801).samplerRun = true ∧
    (converting 1 0x0801).inputs = [.conv 0x0801] :: [] ∧ 0x0801 < 2 ^ (converting 1 0x0801).cfg.sampleW ∧
    (converting 1 0x0801).seqIdx = 1 ∧ (converting 1 0x0801).sa.threshold < 0x0801 :=
  ⟨⟨rfl, rfl, rfl, rfl⟩, by decide, rfl, rfl, by decide, rfl, by decide⟩

theorem witness_OverrunHaltsSampler :
    Quiet (sampling 0 [[.overrun]]) ∧ (sampling 0 [[.overrun]]).phase ≠ .halt ∧
    (sampling 0 [[.overrun]]).samplerRun = true ∧ (sampling 0 [[.overrun]]).inputs = [.overrun] :: [] :=
  ⟨⟨rfl, rfl, rfl, rfl⟩, by decide, rfl, rfl⟩

theorem witness_HaltedSamplerIgnores :
    Quiet (idleWith [.conv 0xFFFF, .overrun]) ∧ (idleWith [.conv 0xFFFF, .overrun]).samplerRun = false ∧
    (idleWith [.conv 0xFFFF, .overrun]).inputs = [.conv 0xFFFF, .overrun] :: [] ∧
    (∀ e ∈ [Event.conv 0xFFFF, .overrun], e = .overrun ∨ ∃ v, e = .conv v) :=
  ⟨⟨rfl, rfl, rfl, rfl⟩, rfl, rfl, by simp⟩

/-- Each clause in a state of its own; the breach one above the threshold. -/
theorem witness_SamplerStarts :
    (Quiet (idleWith [.samplerStart]) ∧ (idleWith [.samplerStart]).phase ≠ .halt ∧
      (idleWith [.samplerStart]).inputs = [.samplerStart] :: []) ∧
    (Quiet (sampling 1 [[.conv 0x0801, .samplerStart]]) ∧ (sampling 1 [[.conv 0x0801, .samplerStart]]).phase ≠ .halt ∧
      (sampling 1 [[.conv 0x0801, .samplerStart]]).samplerRun = true ∧
      (sampling 1 [[.conv 0x0801, .samplerStart]]).seqIdx = 1 ∧
      0x0801 < 2 ^ (sampling 1 [[.conv 0x0801, .samplerStart]]).cfg.sampleW ∧
      (sampling 1 [[.conv 0x0801, .samplerStart]]).sa.threshold < 0x0801 ∧
      (sampling 1 [[.conv 0x0801, .samplerStart]]).inputs = [.conv 0x0801, .samplerStart] :: []) ∧
    (Quiet (sampling 0 [[.overrun, .samplerStart]]) ∧ (sampling 0 [[.overrun, .samplerStart]]).phase ≠ .halt ∧
      (sampling 0 [[.overrun, .samplerStart]]).inputs = [.overrun, .samplerStart] :: []) :=
  ⟨⟨⟨rfl, rfl, rfl, rfl⟩, by decide, rfl⟩, ⟨⟨rfl, rfl, rfl, rfl⟩, by decide, rfl, rfl, by decide, by decide, rfl⟩,
    ⟨⟨rfl, rfl, rfl, rfl⟩, by decide, rfl⟩⟩

theorem witness_ThresholdConfigured :
    Quiet { idle with inputs := [[.cfgThreshold 0xFFFF]] } ∧ idle.phase ≠ .halt ∧ 0xFFFF < 2 ^ idle.cfg.sampleW ∧
    ({ idle with inputs := [[.cfgThreshold 0xFFFF]] } : State).inputs = [.cfgThreshold 0xFFFF] :: [] :=
  ⟨⟨rfl, rfl, rfl, rfl⟩, by decide, by decide, rfl⟩

/-- A granted SEND in its data phase while the sampler stands on the monitored channel, with an instant to come. -/
def sendingWhileSampling (now : Instant) : State :=
  { streaming .send true 0x0100#15 [now] with
    sendPending := true, samplerRun := true, seqIdx := 1, sa := { idle.sa with threshold := 0x0800 } }

/-- The second clause, in each of its four orders (the instant is free). -/
theorem witness_SimultaneousEventsByPriority (now : Instant) :
    AtData (sendingWhileSampling now) ∧ (sendingWhileSampling now).op = .send ∧
    (sendingWhileSampling now).sendPending = true ∧ (sendingWhileSampling now).recvPending = false ∧
    (sendingWhileSampling now).samplerRun = true ∧ (sendingWhileSampling now).seqIdx = 1 ∧
    0x0900 < 2 ^ (sendingWhileSampling now).cfg.sampleW ∧ (sendingWhileSampling now).sa.threshold < 0x0900 ∧
    (sendingWhileSampling now).inputs = now :: [] :=
  ⟨⟨rfl, rfl, rfl, rfl, rfl, rfl, rfl, rfl⟩, rfl, rfl, rfl, rfl, rfl,
    (by decide : 0x0900 < 2 ^ Config.testValues.sampleW), (by decide : 0x0800 < 0x0900), rfl⟩

/-- The arbiter's clauses: HALT with everything pending; then with all four latches set, and with one taken away after
the other. -/
theorem witness_SimultaneousEventsByPriority_arbiter :
    arbiter { halted [] with awdPend := true, ovrPend := true, csPend := true, bytePend := true } = none ∧
    arbiter { streaming .send true 0#15 [] with awdPend := true, ovrPend := true, csPend := true, bytePend := true } =
      some .breach ∧
    arbiter { streaming .send true 0#15 [] with ovrPend := true, csPend := true, bytePend := true } = some .overrun ∧
    arbiter { streaming .send true 0#15 [] with csPend := true, bytePend := true } = some .edge ∧
    arbiter { streaming .send true 0#15 [] with bytePend := true } = some .byte := by decide

theorem witness_StepKeepsInvariant :
    MachineInvariant (opened Env.initial [[.byte 0x40#8]]) ∧
    ∃ t, step (opened Env.initial [[.byte 0x40#8]]) = .next t :=
  ⟨opened_invariant _ rfl _, exists_next (by decide)⟩

theorem witness_FaultIsSticky :
    ({ sampling 1 [[.conv 0x0001]] with fault := true } : State).inputs = [.conv 0x0001] :: [] ∧
    Event.resetIn ∉ [Event.conv 0x0001] ∧ ({ sampling 1 [[.conv 0x0001]] with fault := true } : State).fault = true ∧
    ∃ t, step { sampling 1 [[.conv 0x0001]] with fault := true } = .next t :=
  ⟨rfl, by decide, rfl, exists_next (by decide)⟩

/-- A step into a READ's data phase, and one out of a transfer. -/
theorem witness_PendingFlagsInTransferOnly :
    (MachineInvariant (lowAwaited 0#7 [[.byte 0x00#8]]) ∧
      ∃ t, step (lowAwaited 0#7 [[.byte 0x00#8]]) = .next t ∧ ¬ (t.phase = .stream ∧ t.op = .send)) ∧
    (MachineInvariant (opened Env.env0 [[.csRise]]) ∧
      ∃ t, step (opened Env.env0 [[.csRise]]) = .next t ∧ ¬ (t.phase = .stream ∧ t.op = .recv)) :=
  ⟨⟨lowAwaited_invariant _ _, _, rfl, by decide⟩, ⟨opened_invariant _ rfl _, _, rfl, by decide⟩⟩

/-- The three forms: the low byte by itself, a data byte, both header bytes in one step. -/
theorem witness_StatusReadInRead :
    (MachineInvariant (lowAwaited 0#7 [[.byte 0x00#8]]) ∧ (lowAwaited 0#7 [[.byte 0x00#8]]).bitcnt = 0#3 ∧
      (lowAwaited 0#7 [[.byte 0x00#8]]).inputs = [.byte 0x00#8] :: [] ∧
      (lowAwaited 0#7 [[.byte 0x00#8]]).phase = .addrLo ∧
      (lowAwaited 0#7 [[.byte 0x00#8]]).ahi ++ 0x00#8 = (lowAwaited 0#7 [[.byte 0x00#8]]).cfg.statusAddr ∧
      ∃ t, step (lowAwaited 0#7 [[.byte 0x00#8]]) = .next t) ∧
    (MachineInvariant (streaming .read true 0#15 [[.byte 0x00#8]]) ∧
      (streaming .read true 0#15 [[.byte 0x00#8]]).bitcnt = 0#3 ∧
      (streaming .read true 0#15 [[.byte 0x00#8]]).inputs = [.byte 0x00#8] :: [] ∧
      (streaming .read true 0#15 [[.byte 0x00#8]]).phase = .stream ∧
      (streaming .read true 0#15 [[.byte 0x00#8]]).op = .read ∧
      (streaming .read true 0#15 [[.byte 0x00#8]]).cursor.addr =
        (streaming .read true 0#15 [[.byte 0x00#8]]).cfg.statusAddr ∧
      ∃ t, step (streaming .read true 0#15 [[.byte 0x00#8]]) = .next t) ∧
    (MachineInvariant (opened Env.env0 [[.byte 0x80#8], [.byte 0x00#8]]) ∧
      (opened Env.env0 [[.byte 0x80#8], [.byte 0x00#8]]).bitcnt = 0#3 ∧
      (opened Env.env0 [[.byte 0x80#8], [.byte 0x00#8]]).phase = .cmd ∧
      (opened Env.env0 [[.byte 0x80#8], [.byte 0x00#8]]).inputs =
        [.byte (1#1 ++ 0x00#7)] :: [.byte 0x00#8] :: [] ∧
      0x00#7 ++ 0x00#8 = (opened Env.env0 [[.byte 0x80#8], [.byte 0x00#8]]).cfg.statusAddr ∧
      ∃ t, step (opened Env.env0 [[.byte 0x80#8], [.byte 0x00#8]]) = .next t) :=
  ⟨⟨lowAwaited_invariant _ _, rfl, rfl, rfl, by decide, exists_next (by decide)⟩,
    ⟨reading_invariant _ _, rfl, rfl, rfl, rfl, rfl, exists_next (by decide)⟩,
    ⟨opened_invariant _ rfl _, rfl, rfl, rfl, by decide, exists_next (by decide)⟩⟩

theorem witness_MonitorLeavesTransferAlone :
    Quiet (streaming .read true 0#15 [[.samplerStart, .conv 1, .overrun, .cfgThreshold 7]]) ∧
    (streaming .read true 0#15 [[.samplerStart, .conv 1, .overrun, .cfgThreshold 7]]).inputs =
      [.samplerStart, .conv 1, .overrun, .cfgThreshold 7] :: [] ∧
    (∀ e ∈ [Event.samplerStart, .conv 1, .overrun, .cfgThreshold 7], e.ofMonitor = true) :=
  ⟨⟨rfl, rfl, rfl, rfl⟩, rfl, by decide⟩

/-- A data byte of a SEND changes a cell. -/
theorem witness_OnlySendWritesRegisterFile :
    Quiet (streaming .send true 0x7FFF#15 [[.byte 0x55#8]]) ∧
    (streaming .send true 0x7FFF#15 [[.byte 0x55#8]]).inputs = [.byte 0x55#8] :: [] ∧
    (∀ e ∈ [Event.byte 0x55#8], e.ofEnvironment = false) ∧
    (nextOf (step (streaming .send true 0x7FFF#15 [[.byte 0x55#8]]))).map (fun t => cell t 0x7FFF#15) =
      some (some 0x55#8) ∧
    cell (streaming .send true 0x7FFF#15 [[.byte 0x55#8]]) 0x7FFF#15 = some 0x00#8 :=
  ⟨⟨rfl, rfl, rfl, rfl⟩, rfl, by decide, by decide, by decide⟩

/-- What each clause of PhaseTransitions asks of a state: the invariant, one event, a next state. -/
def MeetsPhaseTransitions (s : State) (e : Event) : Prop :=
  MachineInvariant s ∧ s.inputs = [e] :: [] ∧ ∃ t, step s = .next t

/-- One state for each clause. -/
theorem witness_PhaseTransitions :
    (MeetsPhaseTransitions (idleWith [.csFall]) .csFall ∧ (idleWith [.csFall]).phase = .idle) ∧
    (MeetsPhaseTransitions (opened Env.initial [[.byte 0x4F#8]]) (.byte 0x4F#8) ∧
      (opened Env.initial [[.byte 0x4F#8]]).phase = .cmd) ∧
    (MeetsPhaseTransitions (lowAwaited 0#7 [[.byte 0x00#8]]) (.byte 0x00#8) ∧
      (lowAwaited 0#7 [[.byte 0x00#8]]).phase = .addrLo) ∧
    (MeetsPhaseTransitions (streaming .read true 0#15 [[.csRise]]) .csRise ∧
      (streaming .read true 0#15 [[.csRise]]).phase = .stream) ∧
    (MeetsPhaseTransitions (halted [[.resetIn]]) .resetIn ∧ (halted [[.resetIn]]).phase = .halt) ∧
    (MeetsPhaseTransitions (halted [[.csFall]]) .csFall ∧ Event.csFall ≠ .resetIn) ∧
    (MeetsPhaseTransitions (opened Env.initial [[.conv 1]]) (.conv 1) ∧ (Event.conv 1).ofMonitor = true) :=
  ⟨⟨⟨idle_invariant _, rfl, exists_next (by decide)⟩, rfl⟩, ⟨⟨opened_invariant _ rfl _, rfl, exists_next (by decide)⟩, rfl⟩,
    ⟨⟨lowAwaited_invariant _ _, rfl, exists_next (by decide)⟩, rfl⟩,
    ⟨⟨reading_invariant _ _, rfl, exists_next (by decide)⟩, rfl⟩,
    ⟨⟨halted_invariant _, rfl, exists_next (by decide)⟩, rfl⟩,
    ⟨⟨halted_invariant _, rfl, exists_next (by decide)⟩, by decide⟩,
    ⟨⟨opened_invariant _ rfl _, rfl, exists_next (by decide)⟩, rfl⟩⟩

theorem witness_CommitsMatchGrants :
    MachineInvariant (opened (envOf [] (some 0x0100#15) none) [[.byte 0x00#8]]) ∧
    GrantsBalanced (opened (envOf [] (some 0x0100#15) none) [[.byte 0x00#8]]) ∧
    (opened (envOf [] (some 0x0100#15) none) [[.byte 0x00#8]]).inputs = [.byte 0x00#8] :: [] ∧
    Event.resetIn ∉ [Event.byte 0x00#8] ∧
    ∃ t, step (opened (envOf [] (some 0x0100#15) none) [[.byte 0x00#8]]) = .next t :=
  ⟨opened_invariant _ rfl _, ⟨rfl, rfl⟩, rfl, by decide, exists_next (by decide)⟩

theorem witness_ParametersNeverChange : ∃ t, step (opened Env.initial [[.byte 0x40#8]]) = .next t :=
  exists_next (by decide)

/-- The inputs of a transfer: a header, two data bytes, the rising edge. -/
def transfer (header : List Byte) : List Instant := byteEvents (header ++ [0xDE#8, 0xAD#8]) ++ [[.csRise]]

/-- A range outside the overlays, with the byte a cell holds, and one that runs into the Sample Array. -/
theorem witness_ReadTransfer :
    (MachineInvariant (opened Env.env0 (transfer [0x92#8, 0x34#8])) ∧
      AtCommand (opened Env.env0 (transfer [0x92#8, 0x34#8])) ∧ (0x1234#15 : Addr) = 0x12#7 ++ 0x34#8 ∧
      (opened Env.env0 (transfer [0x92#8, 0x34#8])).inputs =
        byteEvents ((1#1 ++ 0x12#7) :: 0x34#8 :: [0xDE#8, 0xAD#8]) ++ [.csRise] :: [] ∧
      inOverlay (opened Env.env0 (transfer [0x92#8, 0x34#8])) (addrPlus 0x1234#15 2) = false ∧
      cell (opened Env.env0 (transfer [0x92#8, 0x34#8])) (addrPlus 0x1234#15 2) = some 0x00#8) ∧
    (MachineInvariant (opened Env.env0 (transfer [0x80#8, 0x0F#8])) ∧
      AtCommand (opened Env.env0 (transfer [0x80#8, 0x0F#8])) ∧ (0x000F#15 : Addr) = 0x00#7 ++ 0x0F#8 ∧
      (opened Env.env0 (transfer [0x80#8, 0x0F#8])).inputs =
        byteEvents ((1#1 ++ 0x00#7) :: 0x0F#8 :: [0xDE#8, 0xAD#8]) ++ [.csRise] :: [] ∧
      inOverlay (opened Env.env0 (transfer [0x80#8, 0x0F#8])) (addrPlus 0x000F#15 1) = true) :=
  ⟨⟨opened_invariant _ rfl _, opened_atCommand _ _, by decide, rfl, by decide, by decide⟩,
    ⟨opened_invariant _ rfl _, opened_atCommand _ _, by decide, rfl, by decide⟩⟩

theorem witness_SendTransfer :
    MachineInvariant (opened (envOf [] (some 0x0100#15) none) (transfer [0x0F#8])) ∧
    AtCommand (opened (envOf [] (some 0x0100#15) none) (transfer [0x0F#8])) ∧ (0x0F#8).toNat ≤ 0x0F ∧
    (opened (envOf [] (some 0x0100#15) none) (transfer [0x0F#8])).env.sendGrant = some 0x0100#15 ∧
    (opened (envOf [] (some 0x0100#15) none) (transfer [0x0F#8])).inputs =
      byteEvents (0x0F#8 :: [0xDE#8, 0xAD#8]) ++ [.csRise] :: [] ∧
    [0xDE#8, 0xAD#8].length ≤ 2 ^ 15 ∧
    inOverlay (opened (envOf [] (some 0x0100#15) none) (transfer [0x0F#8])) (addrPlus 0x0100#15 1) = false :=
  ⟨opened_invariant _ rfl _, opened_atCommand _ _, by decide, rfl, rfl, by decide, by decide⟩

theorem witness_SendTransferWithoutSlot :
    MachineInvariant (opened Env.initial (transfer [0x00#8])) ∧ AtCommand (opened Env.initial (transfer [0x00#8])) ∧
    (0x00#8).toNat ≤ 0x0F ∧ (opened Env.initial (transfer [0x00#8])).env.sendGrant = none ∧
    (opened Env.initial (transfer [0x00#8])).inputs = byteEvents (0x00#8 :: [0xDE#8, 0xAD#8]) ++ [.csRise] :: [] :=
  ⟨opened_invariant _ rfl _, opened_atCommand _ _, by decide, rfl, rfl⟩

/-- A transfer of a granted RECV, its slot at an address. -/
def receivingAt (g : Addr) : State := opened (envOf [] none (some g)) (transfer [0x3F#8])

/-- A slot outside the overlays, with the byte a cell holds, one at STATUS_ADDR, and one that runs into the Sample Array. -/
theorem witness_RecvTransfer :
    (∀ g, MachineInvariant (receivingAt g) ∧ AtCommand (receivingAt g) ∧ (receivingAt g).env.recvGrant = some g ∧
      (receivingAt g).inputs = byteEvents (0x3F#8 :: [0xDE#8, 0xAD#8]) ++ [.csRise] :: []) ∧
    0x30 ≤ (0x3F#8).toNat ∧ (0x3F#8).toNat ≤ 0x3F ∧
    (inOverlay (receivingAt 0x0200#15) (addrPlus 0x0200#15 2) = false ∧
      cell (receivingAt 0x0200#15) (addrPlus 0x0200#15 2) = some 0x00#8) ∧
    inOverlay (receivingAt 0x0000#15) 0x0000#15 = true ∧
    (1 ≤ 1 ∧ 1 ≤ [0xDE#8, 0xAD#8].length ∧ inOverlay (receivingAt 0x000F#15) (addrPlus 0x000F#15 1) = true) :=
  ⟨fun _ => ⟨opened_invariant _ rfl _, opened_atCommand _ _, rfl, rfl⟩, by decide, by decide, ⟨by decide, by decide⟩,
    by decide, by decide⟩

theorem witness_RecvTransferWithoutMessage :
    MachineInvariant (opened Env.initial (transfer [0x30#8])) ∧ AtCommand (opened Env.initial (transfer [0x30#8])) ∧
    0x30 ≤ (0x30#8).toNat ∧ (0x30#8).toNat ≤ 0x3F ∧ (opened Env.initial (transfer [0x30#8])).env.recvGrant = none ∧
    (opened Env.initial (transfer [0x30#8])).inputs = byteEvents (0x30#8 :: [0xDE#8, 0xAD#8]) ++ [.csRise] :: [] :=
  ⟨opened_invariant _ rfl _, opened_atCommand _ _, by decide, by decide, rfl, rfl⟩

theorem witness_TestTransfer :
    AtCommand (opened Env.initial (transfer [0x4E#8])) ∧ 0x40 ≤ (0x4E#8).toNat ∧ (0x4E#8).toNat ≤ 0x4E ∧
    (opened Env.initial (transfer [0x4E#8])).inputs = byteEvents (0x4E#8 :: [0xDE#8, 0xAD#8]) ++ [[.csRise]] :=
  ⟨opened_atCommand _ _, by decide, by decide, rfl⟩

theorem witness_EightClockPeriodsAreOneByte :
    AtCommand (opened Env.initial []) ∧ AtLowByte (lowAwaited 0x12#7 []) ∧ AtData (streaming .send true 0#15 []) :=
  ⟨opened_atCommand _ _, ⟨rfl, rfl, rfl, rfl, rfl, rfl, rfl⟩, streaming_atData _ _ _ _⟩

/-- No clock period at all, and seven. -/
theorem witness_FragmentDiscarded :
    AtCommand (opened Env.initial [[.csRise]]) ∧ ([] : List Bool).length < 8 ∧
    AtData (streaming .send true 0#15 ((List.replicate 7 [.sck true]) ++ [[.csRise]])) ∧
    (List.replicate 7 true).length < 8 ∧
    (streaming .send true 0#15 ((List.replicate 7 [.sck true]) ++ [[.csRise]])).inputs =
      (List.replicate 7 true).map (fun b => [.sck b]) ++ [.csRise] :: [] :=
  ⟨opened_atCommand _ _, by decide, streaming_atData _ _ _ _, by decide, rfl⟩

end Sys2Proof.Tests
end

