-- ==== Sys2Proof/Proofs/Scope.lean ====
section
/-! SUPPORT. The parameters along a step, the RECV command, and the data phase of an operation that fetches. -/

namespace Sys2Proof.Machine

open Sys2Proof

/-! ### What the presentation of an event can do -/

/-- A falling edge that is taken sets its latch in IDLE, and is ignored in HALT. -/
theorem presentFall_cases {s t : State} (h : presentFall s = .next t) :
    (s.phase = .halt ∧ t = s) ∨ (s.phase = .idle ∧ s.csPend = false ∧ t = { s with csPend := true }) := by
  unfold presentFall at h
  split_ifs at h with hh hc hi <;> cases h
  · exact .inl ⟨hh, rfl⟩
  · exact .inr ⟨hi, Bool.eq_false_of_not_eq_true hc, rfl⟩

/-- A rising edge that is taken sets its latch in CMD, ADDR_LO or STREAM, and is ignored in HALT. -/
theorem presentRise_cases {s t : State} (h : presentRise s = .next t) :
    (s.phase = .halt ∧ t = s) ∨
    (s.phase ≠ .halt ∧ s.phase ≠ .idle ∧ s.csPend = false ∧ t = { s with csPend := true }) := by
  unfold presentRise at h
  split_ifs at h with hh hc hi <;> cases h
  · exact .inl ⟨hh, rfl⟩
  · exact .inr ⟨hh, hi, Bool.eq_false_of_not_eq_true hc, rfl⟩

/-- A byte that is taken is an exchange between byte times with no byte waiting, or one in HALT. -/
theorem presentByte_cases {m : Byte} {s t : State} (h : presentByte m s = .next t) :
    (s.phase = .halt ∧ t = haltExchange m s) ∨
    (s.phase ≠ .halt ∧ s.phase ≠ .idle ∧ s.selected = true ∧ s.bitcnt = 0#3 ∧ s.bytePend = false ∧
      t = s.exchange m s.txdata) := by
  unfold presentByte at h
  split_ifs at h with hh hs hb hp <;> cases h
  · exact .inl ⟨hh, rfl⟩
  · obtain ⟨hsel, hi⟩ := not_or.1 hs
    exact .inr ⟨hh, hi, by simpa using hsel, not_not.1 hb, Bool.eq_false_of_not_eq_true hp, rfl⟩

/-- A clock period that is taken is ignored, moves the serialiser, or completes a byte. -/
theorem presentBit_cases {b : Bool} {s t : State} (h : presentBit b s = .next t) :
    ((s.phase = .halt ∨ s.selected = false ∨ s.phase = .idle) ∧ t = s) ∨
    (¬ (s.phase = .halt ∨ s.selected = false ∨ s.phase = .idle) ∧ s.bytePend = false ∧ s.bitcnt ≠ 7#3 ∧
      t = { s with
        shift := shiftIn (serialByte s) b, bitcnt := s.bitcnt + 1#3,
        misoBits := shiftIn s.misoBits ((serialByte s).getLsbD 7) }) ∨
    (¬ (s.phase = .halt ∨ s.selected = false ∨ s.phase = .idle) ∧ s.bytePend = false ∧ s.bitcnt = 7#3 ∧
      t = s.exchange (shiftIn s.shift b) (shiftIn s.misoBits (s.shift.getLsbD 7))) := by
  unfold presentBit at h
  split_ifs at h with hi hp hb <;> cases h
  · exact .inl ⟨hi, rfl⟩
  · exact .inr (.inl ⟨hi, Bool.eq_false_of_not_eq_true hp, hb, rfl⟩)
  · exact .inr (.inr ⟨hi, Bool.eq_false_of_not_eq_true hp, not_not.1 hb, rfl⟩)

/-! ### The parameters (00_scope.md R7) -/

@[simp] theorem convService_cfg (v : Nat) (s : State) : (convService v s).cfg = s.cfg := by
  unfold convService
  split_ifs <;> rfl

@[simp] theorem envMove_cfg (m : EnvMove) (s : State) : (envMove m s).cfg = s.cfg := by
  cases m <;> rfl

/-- What keeps the parameters keeps them unless halted. -/
theorem unlessHalted_cfg {f : State → State} (hf : ∀ s, (f s).cfg = s.cfg) (s : State) :
    (unlessHalted f s).cfg = s.cfg := by
  unfold unlessHalted
  split_ifs
  · rfl
  · exact hf s

/-- No event writes a parameter. -/
theorem present_cfg {e : Event} {s t : State} (h : present e s = .next t) : t.cfg = s.cfg := by
  cases e with
  | csFall => rcases presentFall_cases h with ⟨-, rfl⟩ | ⟨-, -, rfl⟩ <;> rfl
  | csRise => rcases presentRise_cases h with ⟨-, rfl⟩ | ⟨-, -, -, rfl⟩ <;> rfl
  | byte m => rcases presentByte_cases h with ⟨-, rfl⟩ | ⟨-, -, -, -, -, rfl⟩ <;> rfl
  | sck b => rcases presentBit_cases h with ⟨-, rfl⟩ | ⟨-, -, -, rfl⟩ | ⟨-, -, -, rfl⟩ <;> rfl
  | conv v => cases h; exact unlessHalted_cfg (convService_cfg v) s
  | overrun => cases h; exact unlessHalted_cfg (f := fun u => { u with ovrPend := true }) (fun _ => rfl) s
  | resetIn => cases h; rfl
  | cfgThreshold v => cases h; exact unlessHalted_cfg (f := cfgThreshold v) (fun _ => rfl) s
  | samplerStart => cases h; exact unlessHalted_cfg (fun u => by rw [samplerStart_eq]) s
  | env m => cases h; exact envMove_cfg m s

@[simp] theorem edgeService_cfg (s : State) : (edgeService s).cfg = s.cfg := by
  rw [edgeService_eq]
  split_ifs
  · rfl
  · rfl
  · rw [csRiseService_eq]

/-- No service writes a parameter. -/
theorem service_cfg {src : Source} {s t : State} (h : service src s = .next t) : t.cfg = s.cfg := by
  rcases service_cases h with rfl | rfl | rfl | ⟨-, i, l, hx⟩ | ⟨-, rfl⟩ | ⟨-, rfl⟩ | ⟨-, rfl⟩ | rfl
  · rw [breachService_eq]
  · rw [overrunService_eq]
  · exact edgeService_cfg s
  · obtain ⟨u, hu, -, -, -, -, -, hcfg⟩ := exec_spec i { s with bytePend := false, inputs := l }
    rw [hu] at hx
    cases hx
    exact hcfg
  · rfl
  · rfl
  · exact byteClockService_cfg _ _
  · rfl

/-- Settles O52: presentation and service keep the parameters, hence a step does. -/
theorem parametersNeverChange : Obligations.ParametersNeverChange := by
  intro s t h
  exact step_rel (R := fun a b => b.cfg = a.cfg) (fun _ => rfl) (fun hab hbc => hbc.trans hab) (fun _ _ => rfl)
    (fun _ _ _ _ _ _ _ => present_cfg) (fun _ _ _ _ => service_cfg) h

/-! ### RECV, command service (42_queue_send_recv.md R170) -/

/-- What RECV leaves when a message stands at `g`. -/
def recvGranted (g : Addr) (s : State) : State :=
  { s with
    recvPending := true,
    txdata := memReadByte s g,
    trace := s.trace ++ [.call (.recvFront (some g))] ++ memReadCalls s g,
    env := { s.env with draws := s.env.draws + (memReadCalls s g).length },
    cursor := { valid := true, addr := nextAddr g },
    op := .recv, byteIe := true, phase := .stream }

/-- What RECV leaves when no message stands. -/
def recvUngranted (s : State) : State :=
  { s with
    trace := s.trace ++ [.call (.recvFront none)],
    cursor := { valid := false, addr := s.cursor.addr },
    op := .recv, byteIe := true, phase := .stream }

/-- RECV asks once and goes on by the answer. -/
theorem exec_recv (arg4 : Nibble) (s : State) : exec (.recv arg4) s =
    .next ((adoptRecvGrant s.env.recvGrant (s.call (.recvFront s.env.recvGrant))).openStream .recv) := rfl

/-- RECV with a message. The call `recv_front()` changes nothing the fetch at `g` looks at. -/
theorem exec_recv_granted (arg4 : Nibble) {s : State} {g : Addr} (h : s.env.recvGrant = some g) :
    exec (.recv arg4) s = .next (recvGranted g s) := by
  rw [exec_recv, h]
  rfl

/-- RECV without a message. -/
theorem exec_recv_ungranted (arg4 : Nibble) {s : State} (h : s.env.recvGrant = none) :
    exec (.recv arg4) s = .next (recvUngranted s) := by
  rw [exec_recv, h]
  rfl

/-- Settles O17: the two answers of `recv_front()`. -/
theorem recvCommand : Obligations.RecvCommand :=
  fun arg4 _ => ⟨fun _ => exec_recv_granted arg4, exec_recv_ungranted arg4⟩

/-! ### Which command byte is a RECV (30_encoding.md R93, R97) -/

/-- Below 0x80 a command byte is of format N. -/
theorem isFormatA_of_lt {c : Byte} (h : c.toNat < 0x80) : isFormatA c = false :=
  Nat.testBit_lt_two_pow h

/-- The operation code is the high nibble. -/
theorem opcOf_eq_of_range {c : Byte} {opc : Nibble} (hlow : 16 * opc.toNat ≤ c.toNat)
    (hhigh : c.toNat < 16 * opc.toNat + 16) : opcOf c = opc := by
  apply BitVec.eq_of_toNat_eq
  have hopc := opc.isLt
  simp only [opcOf, BitVec.extractLsb'_toNat, Nat.shiftRight_eq_div_pow]
  omega

/-- The command bytes 0x30 to 0x3F are RECV. -/
theorem decodeFormatN_recv {c : Byte} (hlow : 0x30 ≤ c.toNat) (hhigh : c.toNat ≤ 0x3F) :
    decodeFormatN c = .recv (arg4Of c) := by
  have hopc : opcOf c = 3#4 := opcOf_eq_of_range hlow (Nat.lt_succ_of_le hhigh)
  simp [decodeFormatN, hopc]

/-- The step of a RECV command byte with a message at `g`. -/
theorem step_recv_granted {s : State} {c : Byte} {later : List Instant} {g : Addr} (h : AtCommand s)
    (hlow : 0x30 ≤ c.toNat) (hhigh : c.toNat ≤ 0x3F) (hg : s.env.recvGrant = some g)
    (hin : s.inputs = [.byte c] :: later) : step s = .next (recvGranted g (afterByte c later s)) := by
  have hN : isFormatA (afterByte c later s).rxdata = false := isFormatA_of_lt (c := c) (by omega)
  have hd : decodeFormatN (afterByte c later s).rxdata = .recv (arg4Of c) := decodeFormatN_recv hlow hhigh
  rw [step_command h hin, commandService_formatN hN, hd]
  exact exec_recv_granted _ hg

/-! ### What a fetch may answer -/

/-- `v` is what the decoder may answer at `b`: the overlay's byte, else the byte of the cell where one is known
(20_memory.md R62, R63, R73). -/
structure FetchAnswer (s : State) (b : Addr) (v : Byte) : Prop where
  overlay : inOverlay s b = true → v = memReadByte s b
  known : inOverlay s b = false → ∀ w, cell s b = some w → v = w

/-- What `MemRead` answers is such a byte. -/
theorem fetchAnswer_memReadByte (s : State) (b : Addr) : FetchAnswer s b (memReadByte s b) where
  overlay := fun _ => rfl
  known := fun ho _ hw => memReadByte_of_cell ho hw

/-- Such a byte depends on the parameters, the Sample Array, STATUS and the cells alone. -/
theorem FetchAnswer.congr {s t : State} {b : Addr} {v : Byte} (h : FetchAnswer t b v) (hcfg : t.cfg = s.cfg)
    (hsa : t.sa = s.sa) (hstatus : statusByte t = statusByte s) (hcell : cell t b = cell s b) :
    FetchAnswer s b v := by
  have ho := inOverlay_congr hcfg b
  exact ⟨fun hi => (h.overlay (ho.trans hi)).trans (memReadByte_overlay_congr hi hcfg hsa hstatus),
    fun hi w hw => h.known (ho.trans hi) w (hcell.trans hw)⟩

/-- The call of a fetch depends on the parameters alone. -/
theorem fetchCall_congr {s t : State} (h : t.cfg = s.cfg) (a : Addr) (v : Byte) : fetchCall t a v = fetchCall s a v := by
  simp only [fetchCall, inOverlay_congr h]

/-! ### The data phase of READ and RECV (41_read.md R152, 42_queue_send_recv.md R171) -/

/-- A data phase that fetches, its next fetch at `a`. -/
structure Fetching (a : Addr) (s : State) : Prop where
  atData : AtData s
  op : s.op = .read ∨ s.op = .recv
  cursor : s.cursor = { valid := true, addr := a }

/-- `s` with all that a fetching data phase may change taken from `t`. -/
def State.withFetchesOf (s t : State) : State :=
  { s with
    cursor := t.cursor, rxdata := t.rxdata, txdata := t.txdata, shift := t.shift, bitcnt := t.bitcnt,
    misoBits := t.misoBits, inputs := t.inputs, trace := t.trace, env := { s.env with draws := t.env.draws } }

/-- From `s` to `t` nothing changed but what fetches change. -/
def FetchFrame (s t : State) : Prop := t = s.withFetchesOf t

theorem FetchFrame.refl (s : State) : FetchFrame s s := rfl

theorem FetchFrame.trans {s t u : State} (hst : FetchFrame s t) (htu : FetchFrame t u) : FetchFrame s u :=
  calc u = t.withFetchesOf u := htu
    _ = (s.withFetchesOf t).withFetchesOf u := congrArg (·.withFetchesOf u) hst

section
variable {s t : State} (h : FetchFrame s t)
include h

theorem FetchFrame.eq : t = s.withFetchesOf t := h
theorem FetchFrame.phase : t.phase = s.phase := (congrArg State.phase h.eq :)
theorem FetchFrame.sendPending : t.sendPending = s.sendPending := (congrArg State.sendPending h.eq :)
theorem FetchFrame.recvPending : t.recvPending = s.recvPending := (congrArg State.recvPending h.eq :)
theorem FetchFrame.sa : t.sa = s.sa := (congrArg State.sa h.eq :)
theorem FetchFrame.cfg : t.cfg = s.cfg := (congrArg State.cfg h.eq :)
theorem FetchFrame.recvPops : t.env.recvPops = s.env.recvPops := (congrArg (·.env.recvPops) h.eq :)
theorem FetchFrame.statusByte : statusByte t = statusByte s := (congrArg Machine.statusByte h.eq :)
theorem FetchFrame.cell (b : Addr) : Machine.cell t b = Machine.cell s b := (congrArg (Machine.cell · b) h.eq :)

theorem FetchFrame.quiet (hq : Quiet s) : Quiet t := by
  rw [h.eq]
  exact hq

end

/-- What one data byte `m` leaves of a fetching data phase. -/
def fetched (a : Addr) (m : Byte) (later : List Instant) (s : State) : State :=
  { afterByte m later s with
    txdata := memReadByte s a,
    trace := s.trace ++ .exchange m s.txdata :: fetchCall s a (memReadByte s a),
    env := { s.env with draws := s.env.draws + (memReadCalls s a).length },
    cursor := { valid := true, addr := nextAddr a } }

/-- `TXDATA <- CurRead(); CurInc()` through a valid cursor. -/
theorem streamFetch_valid {s : State} {a : Addr} (h : s.cursor = { valid := true, addr := a }) :
    streamFetch s = ((memRead a s).2.place (memReadByte s a)).aim (nextAddr a) := by
  have hv : s.cursor.valid = true := by rw [h]
  have ha : s.cursor.addr = a := by rw [h]
  unfold streamFetch
  rw [curRead_valid hv, ha, curInc_valid (by simpa using hv)]
  simp [ha]

/-- READ and RECV share their byte-clock service. -/
theorem byteClockService_fetch {s : State} (h : s.op = .read ∨ s.op = .recv) (b : Byte) :
    byteClockService b s = streamFetch s := by
  rcases h with h | h <;> simp [byteClockService, h]

/-- The step of a data byte of a fetching data phase. -/
theorem step_fetch {s : State} {a : Addr} {m : Byte} {later : List Instant} (h : Fetching a s)
    (hin : s.inputs = [.byte m] :: later) : step s = .next (fetched a m later s) := by
  obtain ⟨hdata, hop, hcur⟩ := h
  have ⟨_, _, _, _, hq⟩ := hdata
  have hu : byteClockService m (afterByte m later s) = fetched a m later s := by
    rw [byteClockService_fetch (s := afterByte m later s) hop, streamFetch_valid (s := afterByte m later s) hcur]
    have htrace : s.trace ++ [.exchange m s.txdata] ++ memReadCalls s a =
        s.trace ++ .exchange m s.txdata :: fetchCall s a (memReadByte s a) := by
      rw [memReadCalls_eq, List.append_assoc]
      rfl
    exact congrArg (fun l => { fetched a m later s with trace := l }) htrace
  rw [step_data hdata hin (byteClockService_quiet (afterByte_quiet hq m later) m), hu]

/-- A data byte leaves the data phase open, its next fetch one place on. -/
theorem fetched_fetching {s : State} {a : Addr} (h : Fetching a s) (m : Byte) (later : List Instant) :
    Fetching (nextAddr a) (fetched a m later s) := by
  obtain ⟨⟨hphase, hie, hsel, -, hq⟩, hop, -⟩ := h
  exact ⟨⟨hphase, hie, hsel, rfl, hq⟩, hop, rfl⟩

theorem fetched_frame (a : Addr) (m : Byte) (later : List Instant) (s : State) :
    FetchFrame s (fetched a m later s) := rfl

/-- The bytes `first`, then those of `f`. -/
def prepend (first : Byte) (f : Nat → Byte) : Nat → Byte
  | 0 => first
  | j + 1 => f j

/-- What data bytes `ms` with fetches from `a` on leave in the trace: byte `f j` goes out in exchange `j` and `f (j + 1)` is
fetched after it. -/
def fetchTrace (s : State) (a : Addr) (f : Nat → Byte) (ms : List Byte) : List Obs :=
  (ms.mapIdx (fun j m => .exchange m (f j) :: fetchCall s (addrPlus a j) (f (j + 1)))).flatten

theorem fetchTrace_cons (s : State) (a : Addr) (first : Byte) (f : Nat → Byte) (m : Byte) (ms : List Byte) :
    fetchTrace s a (prepend first f) (m :: ms) =
      .exchange m first :: fetchCall s a (f 0) ++ fetchTrace s (nextAddr a) f ms := by
  simp [fetchTrace, prepend, addrPlus_next]

theorem fetchTrace_nextAddr (s : State) (a : Addr) (f : Nat → Byte) (ms : List Byte) :
    fetchTrace s (nextAddr a) f ms =
      (ms.mapIdx (fun j m => .exchange m (f j) :: fetchCall s (addrPlus a (j + 1)) (f (j + 1)))).flatten := by
  simp only [fetchTrace, addrPlus_next]

/-- Entries in one state are those in another with the same parameters. -/
theorem fetchTrace_congr {s t : State} (h : t.cfg = s.cfg) (a : Addr) (f : Nat → Byte) (ms : List Byte) :
    fetchTrace t a f ms = fetchTrace s a f ms := by
  simp only [fetchTrace, fetchCall_congr h]

/-- A fetching data phase over any range: every data byte takes one step, its slave byte is the byte fetched before it. -/
theorem runSteps_fetches (ms : List Byte) {s : State} {a : Addr} {rest : List Instant} (hs : Fetching a s)
    (hin : s.inputs = byteEvents ms ++ rest) :
    ∃ (t : State) (f : Nat → Byte), (∀ n, runSteps (ms.length + n) s = runSteps n t) ∧ f 0 = s.txdata ∧
      t.trace = s.trace ++ fetchTrace s a f ms ∧
      (∀ j, j < ms.length → FetchAnswer s (addrPlus a j) (f (j + 1))) ∧ t.inputs = rest ∧ FetchFrame s t := by
  induction ms generalizing s a with
  | nil =>
    exact ⟨s, fun _ => s.txdata, fun n => by simp, rfl, by simp [fetchTrace], by simp, hin, .refl s⟩
  | cons m ms ih =>
    have hstep : step s = .next (fetched a m (byteEvents ms ++ rest) s) := step_fetch hs hin
    have hframe := fetched_frame a m (byteEvents ms ++ rest) s
    obtain ⟨t, f, hrun, hf0, htrace, hans, hrest, hft⟩ :=
      ih (fetched_fetching hs m (byteEvents ms ++ rest)) rfl
    have hf0' : f 0 = memReadByte s a := hf0
    refine ⟨t, prepend s.txdata f, fun n => ?_, rfl, ?_, fun j hj => ?_, hrest, hframe.trans hft⟩
    · rw [List.length_cons, Nat.succ_add, runSteps_succ _ hstep, hrun]
    · rw [htrace, fetchTrace_congr hframe.cfg, fetchTrace_cons, hf0', ← List.append_assoc]
      rfl
    · cases j with
      | zero =>
        rw [addrPlus_zero]
        show FetchAnswer s a (f 0)
        rw [hf0']
        exact fetchAnswer_memReadByte s a
      | succ j =>
        rw [← addrPlus_next]
        exact (hans j (Nat.lt_of_succ_lt_succ hj)).congr hframe.cfg hframe.sa hframe.statusByte (hframe.cell _)

/-! ### The whole RECV with a message (42_queue_send_recv.md R174) -/

/-- After its command service a RECV with a message at `g` fetches from the next address on. -/
theorem recvGranted_fetching {s : State} {c : Byte} {later : List Instant} (h : AtCommand s) (g : Addr) :
    Fetching (nextAddr g) (recvGranted g (afterByte c later s)) := by
  obtain ⟨-, hsel, -, hq⟩ := h
  exact ⟨⟨rfl, rfl, hsel, rfl, hq⟩, .inr rfl, rfl⟩

/-- The entries of a RECV's command byte: the exchange, the call, the first fetch. -/
theorem recvGranted_trace (s : State) (c : Byte) (later : List Instant) (g : Addr) :
    (recvGranted g (afterByte c later s)).trace =
      s.trace ++ [.exchange c s.txdata, .call (.recvFront (some g))] ++ fetchCall s g (memReadByte s g) := by
  rw [← memReadCalls_eq]
  simp only [recvGranted, afterByte, List.append_assoc]
  rfl

/-- A later fetch of a RECV answers as the decoder does with RECV_PENDING 1 (R11). -/
theorem fetchAnswer_recvGranted {s : State} {c : Byte} {later : List Instant} {g b : Addr} {v : Byte}
    (h : FetchAnswer (recvGranted g (afterByte c later s)) b v) : FetchAnswer { s with recvPending := true } b v :=
  h.congr rfl rfl rfl rfl

/-- Outside a data phase no outbound message is pending. -/
theorem MachineInvariant.sendPending_of_ne_stream {s : State} (h : MachineInvariant s) (hp : s.phase ≠ .stream) :
    s.sendPending = false := by
  by_contra hsend
  obtain ⟨hstream, -⟩ := h.sendPendingInSend (Bool.eq_true_of_not_eq_false hsend)
  exact hp hstream

/-- What `CS_RISE` leaves of a transfer with an inbound message and no outbound one: one pop, no commit (R172). -/
def recvPopped (s : State) : State :=
  { s with
    byteIe := false, bytePend := false, selected := false, shift := 0#8, bitcnt := 0#3, misoBits := 0#8,
    phase := .idle, recvPending := false, trace := s.trace ++ [.call .recvPopFront],
    env := { s.env with recvPops := s.env.recvPops + 1 } }

@[simp] theorem recvPopped_trace (s : State) : (recvPopped s).trace = s.trace ++ [.call .recvPopFront] := rfl

theorem csRiseService_recv {s : State} (hsend : s.sendPending = false) (hrecv : s.recvPending = true) :
    csRiseService s = recvPopped s := by
  simp [csRiseService_eq, recvPopped, hsend, hrecv]

/-- Settles O56: the command step, the data phase by `runSteps_fetches`, the rising edge. -/
theorem recvTransfer : Obligations.RecvTransfer := by
  intro s c ms later g hinv hcmd hlow hhigh hg hin
  have ⟨hphase, _, _, hq⟩ := hcmd
  have hsend : s.sendPending = false := hinv.sendPending_of_ne_stream (by simp [hphase])
  -- the command byte
  have hstep : step s = .next (recvGranted g (afterByte c (byteEvents ms ++ [.csRise] :: later) s)) :=
    step_recv_granted hcmd hlow hhigh hg hin
  have hopen := recvGranted_fetching (c := c) (later := byteEvents ms ++ [.csRise] :: later) hcmd g
  -- the data bytes
  obtain ⟨u, f, hrun, hf0, htrace, hans, hrest, hframe⟩ := runSteps_fetches ms hopen rfl
  have hf0' : f 0 = memReadByte s g := hf0
  have hans' : ∀ j, 1 ≤ j → j ≤ ms.length → FetchAnswer { s with recvPending := true } (addrPlus g j) (f j) := by
    intro j hj hjn
    obtain ⟨k, rfl⟩ := Nat.exists_eq_add_of_le' hj
    rw [← addrPlus_next]
    exact fetchAnswer_recvGranted (hans k hjn)
  -- the rising edge
  have hrise : step u = .next (recvPopped { u with inputs := later }) := by
    rw [step_rise (.inr (.inr hframe.phase)) (hframe.quiet hq) hrest]
    exact congrArg _ (csRiseService_recv (hframe.sendPending.trans hsend) hframe.recvPending)
  have hall : runSteps (ms.length + 2) s = .next (recvPopped { u with inputs := later }) := by
    rw [runSteps_succ _ hstep, hrun, runSteps_succ _ hrise, runSteps_zero]
  have hover : ∀ b, inOverlay { s with recvPending := true } b = inOverlay s b := inOverlay_congr rfl
  refine ⟨_, f, hall, ?_, ?_, fun _ => hf0', fun j hj hjn ho => (hans' j hj hjn).overlay ((hover _).trans ho), rfl, rfl,
    ?_, hframe.cell⟩
  · have hcfg : (recvGranted g (afterByte c (byteEvents ms ++ [.csRise] :: later) s)).cfg = s.cfg := rfl
    rw [recvPopped_trace, htrace, recvGranted_trace, hf0', fetchTrace_congr hcfg, fetchTrace_nextAddr]
  · intro j v hjn ho hv
    cases j with
    | zero =>
      rw [addrPlus_zero] at ho hv
      exact hf0'.trans (memReadByte_of_cell ho hv)
    | succ j => exact (hans' (j + 1) (Nat.succ_pos j) hjn).known ((hover _).trans ho) v hv
  · exact congrArg (· + 1) hframe.recvPops

end Sys2Proof.Machine
end

section
/-! SUPPORT. The invariant of the machine: kept by every command, every other service, the presentation of every event,
and the rounds of the arbiter; what follows from it, and what writes the Register File. -/

namespace Sys2Proof.Machine

open Sys2Proof

/-! ### What no command changes -/

/-- `t` differs from `s` in nothing that a header's services leave alone. -/
structure HeaderFrame (s t : State) : Prop where
  mem : t.env.mem = s.env.mem
  blank : t.env.blank = s.env.blank
  sendCommits : t.env.sendCommits = s.env.sendCommits
  recvPops : t.env.recvPops = s.env.recvPops
  pfCount : t.env.pfCount = s.env.pfCount
  sa : t.sa = s.sa
  seqIdx : t.seqIdx = s.seqIdx
  samplerRun : t.samplerRun = s.samplerRun
  fault : t.fault = s.fault
  cfg : t.cfg = s.cfg
  selected : t.selected = s.selected
  inputs : t.inputs = s.inputs
  awdPend : t.awdPend = s.awdPend
  ovrPend : t.ovrPend = s.ovrPend
  csPend : t.csPend = s.csPend

/-- A cell is a matter of the list of cells and of what an unlisted one holds. -/
theorem HeaderFrame.cell {s t : State} (h : HeaderFrame s t) (a : Addr) : Machine.cell t a = Machine.cell s a := by
  simp only [Machine.cell, h.mem, h.blank]

theorem readCommand_frame (hi7 : Page) (s : State) : HeaderFrame s (readCommand hi7 s) := by
  constructor <;> rfl

theorem readAddrLow_frame (lo : Byte) (s : State) : HeaderFrame s (readAddrLow lo s) := by
  constructor <;> rfl

/-- Both queue commands by the answer of their call, every other command as its equation has it. -/
theorem exec_frame {i : Instr} {s t : State} (h : exec i s = .next t) : HeaderFrame s t := by
  cases i with
  | send arg4 =>
    cases h
    cases s.env.sendGrant <;> constructor <;> rfl
  | recv arg4 =>
    cases h
    cases s.env.recvGrant <;> constructor <;> rfl
  | _ =>
    cases h
    constructor <;> rfl

/-- Settles O23: every command completes, within its frame. -/
theorem commandFrame : Obligations.CommandFrame := by
  intro i s
  obtain ⟨t, ht, -⟩ := exec_spec i s
  have hf := exec_frame ht
  exact ⟨t, ht, hf.cell, hf.sa, hf.seqIdx, hf.samplerRun, hf.fault, hf.cfg, hf.selected, hf.inputs, hf.awdPend,
    hf.ovrPend, hf.csPend, hf.sendCommits, hf.recvPops, hf.pfCount⟩

/-! ### The end of a header keeps the invariant -/

/-- A transfer whose header is not complete: no cursor, nothing pending. -/
structure HeaderOpen (s : State) : Prop where
  selected : s.selected = true
  cursor : s.cursor.valid = false
  sendPending : s.sendPending = false
  recvPending : s.recvPending = false

/-- The registers that PHASE = STREAM constrains, as the invariant has them. -/
structure DataPhaseOpen (s : State) : Prop where
  phase : s.phase = .stream
  byteIe : s.byteIe = true
  op : s.op ≠ .none
  sendPending : s.sendPending = true → s.op = .send
  recvPending : s.recvPending = true → s.op = .recv
  cursor : s.cursor.valid = true ↔ s.op = .read ∨ s.op = .test ∨ s.sendPending = true ∨ s.recvPending = true

theorem MachineInvariant.recvPending_of_ne_stream {s : State} (h : MachineInvariant s) (hp : s.phase ≠ .stream) :
    s.recvPending = false := by
  by_contra hrecv
  obtain ⟨hstream, -⟩ := h.recvPendingInRecv (Bool.eq_true_of_not_eq_false hrecv)
  exact hp hstream

theorem MachineInvariant.selected_of_ne_idle {s : State} (h : MachineInvariant s) (hp : s.phase ≠ .idle) :
    s.selected = true :=
  Bool.eq_true_of_not_eq_false fun hsel => hp (h.deselectedIffIdle.1 hsel)

theorem MachineInvariant.headerOpen {s : State} (h : MachineInvariant s) (hp : s.phase = .cmd ∨ s.phase = .addrLo) :
    HeaderOpen s := by
  obtain ⟨-, hcur⟩ := h.headerBlank hp
  have hstream : s.phase ≠ .stream := by rcases hp with hp | hp <;> simp [hp]
  have hidle : s.phase ≠ .idle := by rcases hp with hp | hp <;> simp [hp]
  exact ⟨h.selected_of_ne_idle hidle, hcur, h.sendPending_of_ne_stream hstream, h.recvPending_of_ne_stream hstream⟩

/-- A header that ends in an open data phase, within the frame of its services, keeps the invariant. -/
theorem MachineInvariant.opened {s t : State} (h : MachineInvariant s) (hs : HeaderOpen s) (hf : HeaderFrame s t)
    (hq : Quiet t) (ht : DataPhaseOpen t) : MachineInvariant t where
  byteIeIffStream := by simp [ht.phase, ht.byteIe]
  deselectedIffIdle := by simp [ht.phase, hf.selected, hs.selected]
  onePending := by
    rintro ⟨hsend, hrecv⟩
    have hop := (ht.sendPending hsend).symm.trans (ht.recvPending hrecv)
    exact Op.noConfusion hop
  sendPendingInSend hsend := ⟨ht.phase, ht.sendPending hsend⟩
  recvPendingInRecv hrecv := ⟨ht.phase, ht.recvPending hrecv⟩
  headerBlank := by simp [ht.phase]
  streamHasOp _ := ht.op
  cursorInStream _ := ht.cursor
  quiet := hq
  serialCleared := by simp [hf.selected, hs.selected]
  memoryCanonical := by
    rw [hf.mem, hf.blank]
    exact h.memoryCanonical
  samplesFit := by
    unfold SamplesFit
    rw [hf.sa, hf.cfg]
    exact h.samplesFit
  overlaysPlaced := by
    rw [hf.cfg]
    exact h.overlaysPlaced

/-- The end of a header (40_framing.md R125) opens a data phase when flags and cursor fit the operation. -/
theorem dataPhaseOpen_openStream {s : State} {o : Op} (ho : o ≠ .none) (hsend : s.sendPending = true → o = .send)
    (hrecv : s.recvPending = true → o = .recv)
    (hcur : s.cursor.valid = true ↔ o = .read ∨ o = .test ∨ s.sendPending = true ∨ s.recvPending = true) :
    DataPhaseOpen (s.openStream o) :=
  ⟨rfl, rfl, ho, hsend, hrecv, hcur⟩

/-- An operation without a cursor. -/
theorem HeaderOpen.openStream_without_cursor {s : State} (h : HeaderOpen s) {o : Op} (hnone : o ≠ .none)
    (hread : o ≠ .read) (htest : o ≠ .test) : DataPhaseOpen (s.openStream o) :=
  dataPhaseOpen_openStream hnone (by simp [h.sendPending]) (by simp [h.recvPending])
    (by simp [h.cursor, h.sendPending, h.recvPending, hread, htest])

/-- An operation whose cursor needs no grant. -/
theorem HeaderOpen.openStream_aimed {s : State} (h : HeaderOpen s) (a : Addr) {o : Op} (ho : o = .read ∨ o = .test) :
    DataPhaseOpen ((s.aim a).openStream o) :=
  dataPhaseOpen_openStream (by rcases ho with rfl | rfl <;> simp) (by simp [h.sendPending]) (by simp [h.recvPending])
    (by rcases ho with rfl | rfl <;> simp)

theorem HeaderOpen.place {s : State} (h : HeaderOpen s) (v : Byte) : HeaderOpen (s.place v) :=
  ⟨h.selected, h.cursor, h.sendPending, h.recvPending⟩

theorem HeaderOpen.call {s : State} (h : HeaderOpen s) (c : Call) : HeaderOpen (s.call c) :=
  ⟨h.selected, h.cursor, h.sendPending, h.recvPending⟩

theorem HeaderOpen.withEnv {s : State} (h : HeaderOpen s) (e : Env) : HeaderOpen { s with env := e } :=
  ⟨h.selected, h.cursor, h.sendPending, h.recvPending⟩

theorem HeaderOpen.memRead {s : State} (h : HeaderOpen s) (a : Addr) : HeaderOpen (memRead a s).2 :=
  ⟨h.selected, h.cursor, h.sendPending, h.recvPending⟩

theorem readAddrLow_opens {s : State} (h : HeaderOpen s) (lo : Byte) : DataPhaseOpen (readAddrLow lo s) :=
  ((h.memRead _).place _).openStream_aimed _ (.inl rfl)

theorem testCommand_opens {s : State} (h : HeaderOpen s) : DataPhaseOpen (testCommand s) :=
  (h.place _).openStream_aimed _ (.inr rfl)

theorem unsupCommand_opens {s : State} (h : HeaderOpen s) : DataPhaseOpen (unsupCommand s) :=
  (h.place _).openStream_without_cursor (o := .unsup) (by simp) (by simp) (by simp)

/-- SEND by the answer of `send_prepare()` (42_queue_send_recv.md R165). -/
theorem adoptSendGrant_opens {s : State} (h : HeaderOpen s) (g : Option Addr) :
    DataPhaseOpen ((adoptSendGrant g s).openStream .send) := by
  apply dataPhaseOpen_openStream
  case ho => simp
  case hsend => exact fun _ => rfl
  case hrecv => cases g <;> simp [adoptSendGrant, h.recvPending]
  case hcur => cases g <;> simp [adoptSendGrant, h.sendPending, h.recvPending]

/-- RECV by the answer of `recv_front()` (R170). -/
theorem adoptRecvGrant_opens {s : State} (h : HeaderOpen s) (g : Option Addr) :
    DataPhaseOpen ((adoptRecvGrant g s).openStream .recv) := by
  apply dataPhaseOpen_openStream
  case ho => simp
  case hsend => cases g <;> simp [adoptRecvGrant, h.sendPending]
  case hrecv => exact fun _ => rfl
  case hcur => cases g <;> simp [adoptRecvGrant, h.sendPending, h.recvPending]

/-- Every command but RESET opens its data phase. -/
theorem exec_opens {i : Instr} {s t : State} (h : HeaderOpen s) (hi : i ≠ .reset) (ht : exec i s = .next t) :
    DataPhaseOpen t := by
  cases i with
  | read hi7 lo8 =>
    cases ht
    apply readAddrLow_opens
    exact ⟨h.selected, h.cursor, h.sendPending, h.recvPending⟩
  | send arg4 => cases ht; exact adoptSendGrant_opens ((h.place _).call _) _
  | enable id =>
    cases ht
    exact (((h.place _).call _).withEnv _).openStream_without_cursor (o := .enable) (by simp) (by simp) (by simp)
  | disable id =>
    cases ht
    exact (((h.place _).call _).withEnv _).openStream_without_cursor (o := .disable) (by simp) (by simp) (by simp)
  | recv arg4 => cases ht; exact adoptRecvGrant_opens (h.call _) _
  | reset => exact absurd rfl hi
  | test0to7 _ | test8to11 _ | test12to13 _ | test14 => cases ht; exact testCommand_opens h
  | unsup5 _ | unsup6to7 _ _ => cases ht; exact unsupCommand_opens h

/-- RESET keeps the invariant: it leaves CMD for HALT and nothing was enabled (44_reset_test_unsupported.md R200). -/
theorem raiseSystemReset_invariant {s : State} (h : MachineInvariant s) (hp : s.phase = .cmd) :
    MachineInvariant (raiseSystemReset s) :=
  have hopen := h.headerOpen (.inl hp)
  { h with
    byteIeIffStream := by simpa [hp] using h.byteIeIffStream
    deselectedIffIdle := by simp [hopen.selected]
    sendPendingInSend := by simp [hopen.sendPending]
    recvPendingInRecv := by simp [hopen.recvPending]
    headerBlank := by simp
    streamHasOp := by simp
    cursorInStream := by simp }

/-- A command keeps the invariant. -/
theorem exec_invariant {i : Instr} {s t : State} (h : MachineInvariant s) (hp : s.phase = .cmd)
    (ht : exec i s = .next t) : MachineInvariant t := by
  by_cases hi : i = .reset
  · subst hi
    cases ht
    exact raiseSystemReset_invariant h hp
  · have hopen := h.headerOpen (.inl hp)
    exact h.opened hopen (exec_frame ht) (exec_quiet h.quiet ht) (exec_opens hopen hi ht)

/-- READ's wait for its low byte keeps the invariant (41_read.md R150). -/
theorem readCommand_invariant {s : State} (h : MachineInvariant s) (hp : s.phase = .cmd) (hi7 : Page) :
    MachineInvariant (readCommand hi7 s) :=
  have hopen := h.headerOpen (.inl hp)
  { h with
    byteIeIffStream := by simpa [readCommand, hp] using h.byteIeIffStream
    deselectedIffIdle := by simp [readCommand, hopen.selected]
    sendPendingInSend := by simp [readCommand, hopen.sendPending]
    recvPendingInRecv := by simp [readCommand, hopen.recvPending]
    headerBlank := fun _ => h.headerBlank (.inl hp)
    streamHasOp := by simp [readCommand]
    cursorInStream := by simp [readCommand] }

/-- The address-low service keeps the invariant (R151). -/
theorem readAddrLow_invariant {s : State} (h : MachineInvariant s) (hp : s.phase = .addrLo) (lo : Byte) :
    MachineInvariant (readAddrLow lo s) :=
  have hopen := h.headerOpen (.inr hp)
  h.opened hopen (readAddrLow_frame lo s) h.quiet (readAddrLow_opens hopen lo)

/-! ### A data byte keeps the invariant -/

/-- What a data byte can change: TXDATA, the cursor, the trace and the environment. -/
theorem byteClockService_eq (b : Byte) (s : State) : byteClockService b s =
    { s with
      txdata := (byteClockService b s).txdata, cursor := (byteClockService b s).cursor,
      trace := (byteClockService b s).trace, env := (byteClockService b s).env } := by
  unfold byteClockService
  split
  case h_1 | h_2 =>
    unfold streamFetch curRead
    split_ifs <;> rfl
  case h_3 =>
    unfold streamSend curWrite
    split_ifs <;> rfl
  all_goals rfl

/-- A data byte does not change what an unlisted cell holds. -/
theorem byteClockService_blank (b : Byte) (s : State) : (byteClockService b s).env.blank = s.env.blank := by
  unfold byteClockService
  split
  case h_1 | h_2 =>
    unfold streamFetch curRead
    split_ifs <;> rfl
  case h_3 =>
    unfold streamSend curWrite
    split_ifs <;> rfl
  all_goals rfl

/-- The cells after a data byte: SEND writes at its valid cursor outside the overlays (R166, R79), nothing else writes. -/
theorem byteClockService_mem (b : Byte) (s : State) : (byteClockService b s).env.mem =
    if s.op = .send ∧ s.cursor.valid = true ∧ inOverlay s s.cursor.addr = false then
      s.env.mem.write s.env.blank s.cursor.addr.toNat b
    else s.env.mem := by
  cases hop : s.op with
  | read | recv =>
    simp only [byteClockService, hop, streamFetch, curRead]
    split_ifs <;> simp_all
  | send =>
    cases hv : s.cursor.valid <;> cases ho : inOverlay s s.cursor.addr <;>
      simp [byteClockService, hop, streamSend, curWrite, hv, ho]
  | none | enable | disable | test | unsup => simp [byteClockService, hop, streamZero, streamTest]

/-- A data byte keeps the canonical form of the cells. -/
theorem byteClockService_wf {s : State} (h : s.env.mem.wf s.env.blank = true) (b : Byte) :
    (byteClockService b s).env.mem.wf (byteClockService b s).env.blank = true := by
  rw [byteClockService_mem, byteClockService_blank]
  split_ifs
  · exact Memory.wf_write _ _ _ _ h
  · exact h

/-- A data byte keeps the validity of the cursor. -/
theorem byteClockService_cursor_valid (b : Byte) (s : State) :
    (byteClockService b s).cursor.valid = s.cursor.valid := by
  unfold byteClockService
  split
  case h_1 | h_2 =>
    rw [streamFetch, curInc_keeps_valid, curRead]
    split_ifs <;> rfl
  case h_3 =>
    rw [streamSend, curInc_keeps_valid, curWrite]
    split_ifs <;> rfl
  case h_4 => rw [streamTest, curInc_keeps_valid, place_cursor]
  all_goals rfl

/-- A data byte keeps the invariant. -/
theorem byteClockService_invariant {s : State} (h : MachineInvariant s) (hp : s.phase = .stream) (b : Byte) :
    MachineInvariant (byteClockService b s) := by
  have hvalid := byteClockService_cursor_valid b s
  have hwf := byteClockService_wf h.memoryCanonical b
  rw [byteClockService_eq]
  exact
    { h with
      headerBlank := by simp [hp]
      cursorInStream := fun _ => by simpa only [hvalid] using h.cursorInStream hp
      memoryCanonical := hwf }

/-! ### The byte service -/

/-- All that the service of a byte can do, by phase (40_framing.md R120). -/
theorem byteService_cases {s t : State} (h : byteService s = .next t) :
    (s.phase = .cmd ∧ ∃ i l, exec i { s with inputs := l } = .next t) ∨
    (s.phase = .cmd ∧ t = readCommand (hi7Of s.rxdata) s) ∨
    (s.phase = .addrLo ∧ t = readAddrLow s.rxdata s) ∨
    (s.phase = .stream ∧ t = byteClockService s.rxdata s) ∨ t = s := by
  unfold byteService at h
  split at h
  case h_1 hp =>
    rcases commandService_cases s with ⟨i, l, hi⟩ | hi
    · exact .inl ⟨hp, i, l, hi.symm.trans h⟩
    · cases hi.symm.trans h
      exact .inr (.inl ⟨hp, rfl⟩)
  case h_2 hp => cases h; exact .inr (.inr (.inl ⟨hp, rfl⟩))
  case h_3 hp => cases h; exact .inr (.inr (.inr (.inl ⟨hp, rfl⟩)))
  case h_4 | h_5 => cases h; exact .inr (.inr (.inr (.inr rfl)))

/-- The service of a byte leaves a quiet state quiet. -/
theorem byteService_quiet {s t : State} (hq : Quiet s) (h : byteService s = .next t) : Quiet t := by
  rcases byteService_cases h with ⟨-, i, l, hi⟩ | ⟨-, rfl⟩ | ⟨-, rfl⟩ | ⟨-, rfl⟩ | rfl
  · exact exec_quiet (s := { s with inputs := l }) hq hi
  · exact hq
  · exact hq
  · exact byteClockService_quiet hq _
  · exact hq

/-- The service of a byte keeps the invariant. -/
theorem byteService_invariant {s t : State} (h : MachineInvariant s) (ht : byteService s = .next t) :
    MachineInvariant t := by
  rcases byteService_cases ht with ⟨hp, i, l, hi⟩ | ⟨hp, rfl⟩ | ⟨hp, rfl⟩ | ⟨hp, rfl⟩ | rfl
  · have hl : MachineInvariant { s with inputs := l } := { h with }
    exact exec_invariant hl hp hi
  · exact readCommand_invariant h hp _
  · exact readAddrLow_invariant h hp _
  · exact byteClockService_invariant h hp _
  · exact h

/-- What the arbiter's pick says of the latches, outside HALT (60_exceptions.md R257, R258): the byte comes last. -/
theorem arbiter_pick {s : State} {src : Source} (h : arbiter s = some src) : s.phase ≠ .halt ∧
    ((src = .breach ∧ s.awdPend = true) ∨ (src = .overrun ∧ s.ovrPend = true) ∨ (src = .edge ∧ s.csPend = true) ∨
      (src = .byte ∧ Quiet { s with bytePend := false })) := by
  unfold arbiter at h
  split_ifs at h with hh ha ho hc hb <;> cases h <;> refine ⟨hh, ?_⟩
  · exact .inl ⟨rfl, ha⟩
  · exact .inr (.inl ⟨rfl, ho⟩)
  · exact .inr (.inr (.inl ⟨rfl, hc⟩))
  · exact .inr (.inr (.inr ⟨rfl, Bool.eq_false_of_not_eq_true ha, Bool.eq_false_of_not_eq_true ho,
      Bool.eq_false_of_not_eq_true hc, rfl⟩))

/-- Nothing is picked: HALT, or no latch but that of a byte that is not enabled. -/
theorem arbiter_none {s : State} (h : arbiter s = none) :
    s.phase = .halt ∨ (s.awdPend = false ∧ s.ovrPend = false ∧ s.csPend = false ∧
      (s.bytePend = true → byteEnabled s = false)) := by
  unfold arbiter at h
  split_ifs at h with hh ha ho hc hb
  · exact .inl hh
  · exact .inr ⟨Bool.eq_false_of_not_eq_true ha, Bool.eq_false_of_not_eq_true ho, Bool.eq_false_of_not_eq_true hc,
      by simpa using hb⟩

/-! ### Within an instant: the invariant but for the latches -/

/-- `s` with no latch set. -/
def State.settled (s : State) : State :=
  { s with awdPend := false, ovrPend := false, csPend := false, bytePend := false }

/-- What holds while an instant is presented and serviced: the invariant but for the latches, a byte waits only where it is
enabled, and HALT has no latch set. -/
structure InvariantWithin (s : State) : Prop where
  settled : MachineInvariant s.settled
  byteWaits : s.bytePend = true → byteEnabled s = true
  haltQuiet : s.phase = .halt → Quiet s

theorem settled_of_quiet {s : State} (h : Quiet s) : s.settled = s := by
  cases s
  obtain ⟨rfl, rfl, rfl, rfl⟩ := h
  rfl

/-- The invariant holds within an instant. -/
theorem MachineInvariant.within {s : State} (h : MachineInvariant s) : InvariantWithin s where
  settled := (settled_of_quiet h.quiet).symm ▸ h
  byteWaits hb := by
    obtain ⟨-, -, -, hq⟩ := h.quiet
    simp [hq] at hb
  haltQuiet _ := h.quiet

/-- With no latch set the invariant is back. -/
theorem InvariantWithin.invariant {s : State} (h : InvariantWithin s) (hq : Quiet s) : MachineInvariant s :=
  settled_of_quiet hq ▸ h.settled

/-- Nothing left to pick: no latch is set. -/
theorem InvariantWithin.quiet_of_arbiter {s : State} (h : InvariantWithin s) (ha : arbiter s = none) : Quiet s := by
  rcases arbiter_none ha with hp | ⟨ha, ho, hc, hb⟩
  · exact h.haltQuiet hp
  · refine ⟨ha, ho, hc, Bool.eq_false_of_not_eq_true fun hbyte => ?_⟩
    have hwait := h.byteWaits hbyte
    simp [hb hbyte] at hwait

/-! ### The other services within an instant -/

/-- The breach service takes the snapshot of a sample that fits (45_analog_monitor.md R224). -/
theorem breachService_within {s : State} (h : InvariantWithin s) (hp : s.phase ≠ .halt) :
    InvariantWithin (breachService s) := by
  obtain ⟨hv, hi, hr, ht, -⟩ := h.settled.samplesFit
  rw [breachService_eq]
  exact ⟨{ h.settled with samplesFit := ⟨hv, hi, hr, ht, hi⟩ }, h.byteWaits, fun hh => absurd hh hp⟩

theorem overrunService_within {s : State} (h : InvariantWithin s) (hp : s.phase ≠ .halt) :
    InvariantWithin (overrunService s) := by
  rw [overrunService_eq]
  exact ⟨{ h.settled with }, h.byteWaits, fun hh => absurd hh hp⟩

/-- `CS_FALL` opens a transfer (R123). -/
theorem csFallService_within {s : State} (h : InvariantWithin s) (hp : s.phase = .idle) :
    InvariantWithin (csFallService s) := by
  have hinv := h.settled
  have hidle : s.settled.phase ≠ .stream := by simp [State.settled, hp]
  have hsend := hinv.sendPending_of_ne_stream hidle
  have hrecv := hinv.recvPending_of_ne_stream hidle
  rw [csFallService_eq]
  refine ⟨?_, fun _ => rfl, nofun⟩
  exact
    { hinv with
      byteIeIffStream := by simpa [State.settled, hp] using hinv.byteIeIffStream
      deselectedIffIdle := by simp [State.settled]
      sendPendingInSend := fun hs => absurd (hsend.symm.trans hs) nofun
      recvPendingInRecv := fun hr => absurd (hrecv.symm.trans hr) nofun
      headerBlank := fun _ => ⟨rfl, rfl⟩
      streamHasOp := nofun
      cursorInStream := nofun
      serialCleared := nofun }

/-- `CS_RISE` ends the transfer (R126). -/
theorem csRiseService_within {s : State} (h : InvariantWithin s) : InvariantWithin (csRiseService s) := by
  rw [csRiseService_eq]
  refine ⟨?_, nofun, nofun⟩
  exact
    { h.settled with
      byteIeIffStream := by simp [State.settled]
      deselectedIffIdle := by simp [State.settled]
      onePending := by simp [State.settled]
      sendPendingInSend := nofun
      recvPendingInRecv := nofun
      headerBlank := by simp [State.settled]
      streamHasOp := nofun
      cursorInStream := nofun
      serialCleared := fun _ => ⟨rfl, rfl⟩ }

theorem edgeService_within {s : State} (h : InvariantWithin s) (hp : s.phase ≠ .halt) :
    InvariantWithin (edgeService s) := by
  have hcleared : InvariantWithin { s with csPend := false } :=
    ⟨{ h.settled with }, h.byteWaits, fun hh => absurd hh hp⟩
  rw [edgeService_eq, if_neg hp]
  split_ifs with hi
  · exact csFallService_within hcleared hi
  · exact csRiseService_within hcleared

/-! ### The presentation of an event within an instant -/

/-- A sample takes SAMPLE_W bits. -/
theorem sampleOf_lt (c : Config) (v : Nat) : sampleOf c v < 2 ^ c.sampleW := Nat.mod_lt _ (Nat.two_pow_pos _)

/-- Reset gives the invariant where the parameters keep R63's duty and the cells are in canonical form. -/
theorem resetWith_invariant {c : Config} {e : Env} (hc : c.wf = true) (he : e.mem.wf e.blank = true) :
    MachineInvariant (State.resetWith c e) where
  byteIeIffStream := by simp [State.resetWith]
  deselectedIffIdle := by simp [State.resetWith]
  onePending := by simp [State.resetWith]
  sendPendingInSend := nofun
  recvPendingInRecv := nofun
  headerBlank := by simp [State.resetWith]
  streamHasOp := nofun
  cursorInStream := nofun
  quiet := ⟨rfl, rfl, rfl, rfl⟩
  serialCleared _ := ⟨rfl, rfl⟩
  memoryCanonical := he
  samplesFit :=
    have hpos : 0 < 2 ^ c.sampleW := Nat.two_pow_pos _
    ⟨hpos, hpos, hpos, Nat.sub_lt hpos Nat.one_pos, hpos⟩
  overlaysPlaced := hc

/-- RESET_IN (70_reset_and_hazards.md R290). -/
theorem resetInService_within {s : State} (h : InvariantWithin s) : InvariantWithin (resetInService s) :=
  have hreset := resetWith_invariant h.settled.overlaysPlaced h.settled.memoryCanonical
  MachineInvariant.within { hreset with }

/-- In an open transfer a byte is enabled (60_exceptions.md R256). -/
theorem InvariantWithin.byteEnabled {s : State} (h : InvariantWithin s) (hh : s.phase ≠ .halt)
    (hi : s.phase ≠ .idle) : byteEnabled s = true := by
  rw [byteEnabled_iff]
  cases hp : s.phase with
  | cmd => exact .inl rfl
  | addrLo => exact .inr (.inl rfl)
  | stream => exact .inr (.inr ⟨rfl, h.settled.byteIeIffStream.2 hp⟩)
  | idle => exact absurd hp hi
  | halt => exact absurd hp hh

/-- A complete byte in an open transfer, whatever its slave byte (40_framing.md R120). -/
theorem exchange_within {s : State} (h : InvariantWithin s) (hh : s.phase ≠ .halt) (hi : s.phase ≠ .idle)
    (hsel : s.selected = true) (m sl : Byte) : InvariantWithin (s.exchange m sl) :=
  ⟨{ h.settled with serialCleared := fun hd => absurd (hsel.symm.trans hd) nofun },
    fun _ => h.byteEnabled hh hi, fun hp => absurd hp hh⟩

/-- A chip-select edge that is taken sets its latch only. -/
theorem csPend_within {s : State} (h : InvariantWithin s) (hh : s.phase ≠ .halt) :
    InvariantWithin { s with csPend := true } :=
  ⟨{ h.settled with }, h.byteWaits, fun hp => absurd hp hh⟩

/-- A byte in HALT is seen in the trace only (R133). -/
theorem haltExchange_within {s : State} (h : InvariantWithin s) (m : Byte) : InvariantWithin (haltExchange m s) :=
  ⟨{ h.settled with }, h.byteWaits, h.haltQuiet⟩

/-- A clock period below the eighth, while selected. -/
theorem serial_within {s : State} (h : InvariantWithin s) (hsel : s.selected = true) (v miso : BitVec 8)
    (n : BitVec 3) : InvariantWithin { s with shift := v, bitcnt := n, misoBits := miso } :=
  ⟨{ h.settled with serialCleared := fun hd => absurd (hsel.symm.trans hd) nofun }, h.byteWaits, h.haltQuiet⟩

/-- A result is stored cut to SAMPLE_W bits (R220, log 4). -/
theorem convService_within {s : State} (h : InvariantWithin s) (hp : s.phase ≠ .halt) (v : Nat) :
    InvariantWithin (convService v s) := by
  obtain ⟨hv, hi, hr, ht, hsnap⟩ := h.settled.samplesFit
  have hnew := sampleOf_lt s.cfg v
  have hfit : SamplesFit { s with sa := s.sa.setChannel s.seqIdx (sampleOf s.cfg v) } := by
    unfold SampleArray.setChannel
    split
    · exact ⟨hnew, hi, hr, ht, hsnap⟩
    · exact ⟨hv, hnew, hr, ht, hsnap⟩
    · exact ⟨hv, hi, hnew, ht, hsnap⟩
  unfold convService
  split_ifs
  · exact ⟨{ h.settled with samplesFit := hfit }, h.byteWaits, fun hh => absurd hh hp⟩
  · exact h

theorem samplerStart_within {s : State} (h : InvariantWithin s) (hp : s.phase ≠ .halt) :
    InvariantWithin (samplerStart s) := by
  obtain ⟨hv, hi, hr, ht, hsnap⟩ := h.settled.samplesFit
  have hnew : (if s.awdPend then s.sa.isense else s.sa.snapshot) < 2 ^ s.cfg.sampleW := by
    split_ifs
    · exact hi
    · exact hsnap
  rw [samplerStart_eq]
  exact ⟨{ h.settled with samplesFit := ⟨hv, hi, hr, ht, hnew⟩ }, h.byteWaits, fun hh => absurd hh hp⟩

/-- A threshold is stored cut to SAMPLE_W bits (R230, log 4). -/
theorem cfgThreshold_within {s : State} (h : InvariantWithin s) (v : Nat) : InvariantWithin (cfgThreshold v s) :=
  have ⟨hv, hi, hr, _, hsnap⟩ := h.settled.samplesFit
  ⟨{ h.settled with samplesFit := ⟨hv, hi, hr, sampleOf_lt s.cfg v, hsnap⟩ }, h.byteWaits, h.haltQuiet⟩

theorem envMove_within {s : State} (h : InvariantWithin s) (m : EnvMove) : InvariantWithin (envMove m s) := by
  have hwf := envMove_wf m s h.settled.memoryCanonical
  cases m <;> exact ⟨{ h.settled with memoryCanonical := hwf }, h.byteWaits, h.haltQuiet⟩

/-- What HALT ignores has to be looked at outside HALT only. -/
theorem unlessHalted_within {f : State → State} {s : State} (h : InvariantWithin s)
    (hf : s.phase ≠ .halt → InvariantWithin (f s)) : InvariantWithin (unlessHalted f s) := by
  unfold unlessHalted
  split_ifs with hp
  · exact h
  · exact hf hp

/-- The presentation of every event keeps the invariant within its instant. -/
theorem present_within {e : Event} {s t : State} (ht : present e s = .next t) (h : InvariantWithin s) :
    InvariantWithin t := by
  cases e with
  | csFall =>
    rcases presentFall_cases ht with ⟨-, rfl⟩ | ⟨hp, -, rfl⟩
    · exact h
    · exact csPend_within h (by simp [hp])
  | csRise =>
    rcases presentRise_cases ht with ⟨-, rfl⟩ | ⟨hp, -, -, rfl⟩
    · exact h
    · exact csPend_within h hp
  | byte m =>
    rcases presentByte_cases ht with ⟨-, rfl⟩ | ⟨hh, hi, hsel, -, -, rfl⟩
    · exact haltExchange_within h m
    · exact exchange_within h hh hi hsel m _
  | sck b =>
    rcases presentBit_cases ht with ⟨-, rfl⟩ | ⟨hopen, -, -, rfl⟩ | ⟨hopen, -, -, rfl⟩
    · exact h
    · obtain ⟨-, hsel, -⟩ := by simpa only [not_or] using hopen
      exact serial_within h (Bool.eq_true_of_not_eq_false hsel) _ _ _
    · obtain ⟨hh, hsel, hi⟩ := by simpa only [not_or] using hopen
      exact exchange_within h hh hi (Bool.eq_true_of_not_eq_false hsel) _ _
  | conv v => cases ht; exact unlessHalted_within h fun hp => convService_within h hp v
  | overrun =>
    cases ht
    exact unlessHalted_within h fun hp => ⟨{ h.settled with }, h.byteWaits, fun hh => absurd hh hp⟩
  | resetIn => cases ht; exact resetInService_within h
  | cfgThreshold v => cases ht; exact unlessHalted_within h fun _ => cfgThreshold_within h v
  | samplerStart => cases ht; exact unlessHalted_within h (samplerStart_within h)
  | env m => cases ht; exact envMove_within h m

/-! ### The rounds of the arbiter -/

/-- How many latches are set. -/
def latchCount (s : State) : Nat := s.awdPend.toNat + s.ovrPend.toNat + s.csPend.toNat + s.bytePend.toNat

theorem latchCount_le (s : State) : latchCount s ≤ serviceRounds := by
  have ha := s.awdPend.toNat_le
  have ho := s.ovrPend.toNat_le
  have hc := s.csPend.toNat_le
  have hb := s.bytePend.toNat_le
  unfold latchCount serviceRounds
  omega

theorem quiet_of_latchCount {s : State} (h : latchCount s = 0) : Quiet s := by
  simp only [latchCount, Nat.add_eq_zero_iff, Bool.toNat_eq_zero] at h
  obtain ⟨⟨⟨ha, ho⟩, hc⟩, hb⟩ := h
  exact ⟨ha, ho, hc, hb⟩

theorem latchCount_breachService {s : State} (h : s.awdPend = true) :
    latchCount (breachService s) + 1 = latchCount s := by
  rw [breachService_eq]
  simp only [latchCount, h, Bool.toNat_false, Bool.toNat_true]
  omega

theorem latchCount_overrunService {s : State} (h : s.ovrPend = true) :
    latchCount (overrunService s) + 1 = latchCount s := by
  rw [overrunService_eq]
  simp only [latchCount, h, Bool.toNat_false, Bool.toNat_true]
  omega

/-- An edge's service clears its latch, and that of a byte it drops (40_framing.md R131). -/
theorem latchCount_edgeService {s : State} (hp : s.phase ≠ .halt) (h : s.csPend = true) :
    latchCount (edgeService s) < latchCount s := by
  rw [edgeService_eq, if_neg hp]
  split_ifs
  · rw [csFallService_eq]
    simp only [latchCount, h, Bool.toNat_false, Bool.toNat_true]
    omega
  · rw [csRiseService_eq]
    simp only [latchCount, h, Bool.toNat_false, Bool.toNat_true]
    omega

/-- One round: a byte's service ends in the invariant; any other keeps it within the instant, with a latch less. -/
theorem service_within {src : Source} {s t : State} (h : InvariantWithin s) (hpick : arbiter s = some src)
    (ht : service src s = .next t) : MachineInvariant t ∨ (InvariantWithin t ∧ latchCount t < latchCount s) := by
  obtain ⟨hp, ⟨rfl, ha⟩ | ⟨rfl, ho⟩ | ⟨rfl, hc⟩ | ⟨rfl, hq⟩⟩ := arbiter_pick hpick
  · cases ht
    exact .inr ⟨breachService_within h hp, Nat.lt_of_succ_le (latchCount_breachService ha).le⟩
  · cases ht
    exact .inr ⟨overrunService_within h hp, Nat.lt_of_succ_le (latchCount_overrunService ho).le⟩
  · cases ht
    exact .inr ⟨edgeService_within h hp, latchCount_edgeService hp hc⟩
  · have hcleared : InvariantWithin { s with bytePend := false } := ⟨{ h.settled with }, nofun, fun _ => hq⟩
    exact .inl (byteService_invariant (hcleared.invariant hq) ht)

/-- As many rounds as there are latches end in the invariant. -/
theorem arbitrate_invariant {n : Nat} {s t : State} (h : InvariantWithin s) (hn : latchCount s ≤ n)
    (ht : arbitrate n s = .next t) : MachineInvariant t := by
  induction n generalizing s with
  | zero =>
    cases ht
    exact h.invariant (quiet_of_latchCount (Nat.le_zero.1 hn))
  | succ n ih =>
    cases hpick : arbiter s with
    | none =>
      have hq := h.quiet_of_arbiter hpick
      cases (arbitrate_quiet hq _).symm.trans ht
      exact h.invariant hq
    | some src =>
      rw [arbitrate_of_pick' hpick] at ht
      obtain ⟨u, hu, hu'⟩ := andThen_eq_next ht
      rcases service_within h hpick hu with hinv | ⟨hwithin, hless⟩
      · cases (arbitrate_quiet hinv.quiet n).symm.trans hu'
        exact hinv
      · exact ih hwithin (by omega) hu'

/-- Settles O43: the instant is presented within the invariant, and four rounds clear its latches. -/
theorem stepKeepsInvariant : Obligations.StepKeepsInvariant := by
  intro s t h ht
  cases hin : s.inputs with
  | nil =>
    simp only [step, serviceNextInstant, hin] at ht
    exact arbitrate_invariant h.within (latchCount_le s) ht
  | cons now later =>
    rw [step_cons hin] at ht
    obtain ⟨u, hu, hu'⟩ := andThen_eq_next ht
    have hstart : MachineInvariant { s with inputs := later } := { h with }
    have hwithin : InvariantWithin u :=
      presentAll_rel (R := fun a b => InvariantWithin a → InvariantWithin b) (fun _ => id)
        (fun hab hbc => hbc ∘ hab) (fun _ _ _ _ => present_within) hu hstart.within
    exact arbitrate_invariant hwithin (latchCount_le u) hu'

/-- Settles O46: the invariant of the state the step ends in, read off. -/
theorem pendingFlagsInTransferOnly : Obligations.PendingFlagsInTransferOnly := by
  intro s t h ht
  have hinv := stepKeepsInvariant s t h ht
  exact ⟨fun hout => Bool.eq_false_of_not_eq_true fun hsend => hout (hinv.sendPendingInSend hsend),
    fun hout => Bool.eq_false_of_not_eq_true fun hrecv => hout (hinv.recvPendingInRecv hrecv), hinv.onePending⟩

/-- Settles O44: whatever the parameters, the implemented ones keep R63's duty. -/
theorem invariantAtReset : Obligations.InvariantAtReset :=
  resetWith_invariant Config.implemented_wf reset_memory_wf

/-! ### STATUS read in a READ (41_read.md R154) -/

/-- The overlay at STATUS_ADDR answers STATUS (20_memory.md R63). -/
theorem memReadByte_statusAddr (s : State) : memReadByte s s.cfg.statusAddr = statusByte s := by
  simp [memReadByte, overlayByte?]

/-- STATUS with nothing pending, by FAULT (10_state.md R30). -/
theorem statusByte_of_not_pending {s : State} (hsend : s.sendPending = false) (hrecv : s.recvPending = false) :
    statusByte s = if s.fault then 0x04#8 else 0x00#8 := by
  cases hf : s.fault <;> simp [statusByte, hsend, hrecv, hf]

/-- In a READ nothing is pending. -/
theorem MachineInvariant.not_pending_in_read {s : State} (h : MachineInvariant s) (hop : s.op = .read) :
    s.sendPending = false ∧ s.recvPending = false := by
  constructor <;> refine Bool.eq_false_of_not_eq_true fun hpend => ?_
  · obtain ⟨-, hsend⟩ := h.sendPendingInSend hpend
    exact Op.noConfusion (hop.symm.trans hsend)
  · obtain ⟨-, hrecv⟩ := h.recvPendingInRecv hpend
    exact Op.noConfusion (hop.symm.trans hrecv)

/-- The address-low service at STATUS_ADDR puts STATUS in TXDATA (R151). -/
theorem readAddrLow_status {lo : Byte} {s : State} (ha : s.ahi ++ lo = s.cfg.statusAddr) :
    (readAddrLow lo s).txdata = statusByte s :=
  (congrArg (memReadByte s) ha).trans (memReadByte_statusAddr s)

/-- Both header bytes of a READ in one step (log 2): the command service and the exchange leave STATUS alone. -/
theorem exec_read_status {hi7 : Page} {lo : Byte} {s t : State} (ha : hi7 ++ lo = s.cfg.statusAddr)
    (ht : exec (.read hi7 lo) s = .next t) : t.txdata = statusByte s := by
  cases ht
  exact readAddrLow_status
    (s := { (readCommand hi7 s).exchange lo (readCommand hi7 s).txdata with bytePend := false }) ha

/-- The command byte of a READ. -/
theorem isFormatA_read (hi7 : Page) : isFormatA (1#1 ++ hi7) = true := by
  revert hi7
  decide

/-- The page of a READ. -/
theorem hi7Of_read (hi7 : Page) : hi7Of (1#1 ++ hi7) = hi7 := by
  revert hi7
  decide

/-- The step of both header bytes of a READ, each an instant of its own. -/
theorem step_read_header {s : State} {hi7 : Page} {lo : Byte} {later : List Instant} (h : AtCommand s)
    (hin : s.inputs = [.byte (1#1 ++ hi7)] :: [.byte lo] :: later) :
    step s = exec (.read hi7 lo) (afterByte (1#1 ++ hi7) later s) := by
  have hread := commandService_read (s := afterByte (1#1 ++ hi7) ([.byte lo] :: later) s) (isFormatA_read hi7) rfl rfl
  rw [step_command h hin, hread]
  exact congrArg (fun p => exec (.read p lo) (afterByte (1#1 ++ hi7) later s)) (hi7Of_read hi7)

/-- Settles O47: each of the three byte services puts STATUS in TXDATA, and no flag is pending. -/
theorem statusReadInRead : Obligations.StatusReadInRead := by
  intro s t b hi7 later h hb ht hcase
  rcases hcase with ⟨hp, hin, ha⟩ | ⟨hp, hop, hin, ha⟩ | ⟨hp, hin, ha⟩
  · have hopen := h.headerOpen (.inr hp)
    cases (step_lowByte ⟨hp, hopen.selected, hb, h.quiet⟩ hin).symm.trans ht
    exact (readAddrLow_status (s := afterByte b later s) ha).trans
      (statusByte_of_not_pending hopen.sendPending hopen.recvPending)
  · obtain ⟨hsend, hrecv⟩ := h.not_pending_in_read hop
    have hvalid : s.cursor.valid = true := (h.cursorInStream hp).2 (.inl hop)
    have hcur : s.cursor = { valid := true, addr := s.cfg.statusAddr } := by rw [← hvalid, ← ha]
    have hdata : AtData s :=
      ⟨hp, h.byteIeIffStream.2 hp, h.selected_of_ne_idle (by simp [hp]), hb, h.quiet⟩
    cases (step_fetch ⟨hdata, .inl hop, hcur⟩ hin).symm.trans ht
    exact (memReadByte_statusAddr s).trans (statusByte_of_not_pending hsend hrecv)
  · have hopen := h.headerOpen (.inl hp)
    rw [step_read_header ⟨hp, hopen.selected, hb, h.quiet⟩ hin] at ht
    exact (exec_read_status (s := afterByte (1#1 ++ hi7) later s) ha ht).trans
      (statusByte_of_not_pending hopen.sendPending hopen.recvPending)

/-! ### What writes the Register File -/

/-- A data byte of a SEND that reaches the Register File: at a valid cursor, outside the overlays (R166, R79). -/
structure SendsAt (a : Addr) (s : State) : Prop where
  phase : s.phase = .stream
  op : s.op = .send
  valid : s.cursor.valid = true
  addr : s.cursor.addr = a
  outside : inOverlay s a = false

/-- `t` has the cells of `s`, and where a data phase is open in `t` it is the one of `s`. -/
structure SameDataPhase (s t : State) : Prop where
  mem : t.env.mem = s.env.mem
  blank : t.env.blank = s.env.blank
  dataPhase : t.phase = .stream → s.phase = .stream ∧ t.op = s.op ∧ t.cursor = s.cursor ∧ t.cfg = s.cfg

theorem SameDataPhase.refl (s : State) : SameDataPhase s s := ⟨rfl, rfl, fun hp => ⟨hp, rfl, rfl, rfl⟩⟩

theorem SameDataPhase.trans {s t u : State} (hst : SameDataPhase s t) (htu : SameDataPhase t u) :
    SameDataPhase s u where
  mem := htu.mem.trans hst.mem
  blank := htu.blank.trans hst.blank
  dataPhase hp := by
    obtain ⟨hp', hop, hcur, hcfg⟩ := htu.dataPhase hp
    obtain ⟨hp'', hop', hcur', hcfg'⟩ := hst.dataPhase hp'
    exact ⟨hp'', hop.trans hop', hcur.trans hcur', hcfg.trans hcfg'⟩

theorem SameDataPhase.cell {s t : State} (h : SameDataPhase s t) (a : Addr) :
    Machine.cell t a = Machine.cell s a := by
  simp only [Machine.cell, h.mem, h.blank]

theorem SameDataPhase.sendsAt {s t : State} {a : Addr} (h : SameDataPhase s t) (ht : SendsAt a t) : SendsAt a s := by
  obtain ⟨hp, hop, hvalid, haddr, hout⟩ := ht
  obtain ⟨hp', hop', hcur, hcfg⟩ := h.dataPhase hp
  exact ⟨hp', hop'.symm.trans hop, hcur ▸ hvalid, hcur ▸ haddr, (inOverlay_congr hcfg a).symm.trans hout⟩

theorem sameDataPhase_unlessHalted {f : State → State} {s : State} (hf : SameDataPhase s (f s)) :
    SameDataPhase s (unlessHalted f s) := by
  unfold unlessHalted
  split_ifs
  · exact .refl s
  · exact hf

theorem sameDataPhase_convService (v : Nat) (s : State) : SameDataPhase s (convService v s) := by
  unfold convService
  split_ifs
  · exact ⟨rfl, rfl, fun hp => ⟨hp, rfl, rfl, rfl⟩⟩
  · exact .refl s

theorem sameDataPhase_samplerStart (s : State) : SameDataPhase s (samplerStart s) := by
  rw [samplerStart_eq]
  exact ⟨rfl, rfl, fun hp => ⟨hp, rfl, rfl, rfl⟩⟩

/-- The presentation of an event that is no move of the environment opens no data phase and writes no cell. -/
theorem present_sameDataPhase {e : Event} {s t : State} (he : e.ofEnvironment = false) (ht : present e s = .next t) :
    SameDataPhase s t := by
  have hsame : ∀ {u : State}, u.env.mem = s.env.mem → u.env.blank = s.env.blank → u.phase = s.phase → u.op = s.op →
      u.cursor = s.cursor → u.cfg = s.cfg → SameDataPhase s u :=
    fun hmem hblank hp hop hcur hcfg => ⟨hmem, hblank, fun hs => ⟨hp.symm.trans hs, hop, hcur, hcfg⟩⟩
  cases e with
  | csFall => rcases presentFall_cases ht with ⟨-, rfl⟩ | ⟨-, -, rfl⟩ <;> exact hsame rfl rfl rfl rfl rfl rfl
  | csRise => rcases presentRise_cases ht with ⟨-, rfl⟩ | ⟨-, -, -, rfl⟩ <;> exact hsame rfl rfl rfl rfl rfl rfl
  | byte m =>
    rcases presentByte_cases ht with ⟨-, rfl⟩ | ⟨-, -, -, -, -, rfl⟩ <;> exact hsame rfl rfl rfl rfl rfl rfl
  | sck b =>
    rcases presentBit_cases ht with ⟨-, rfl⟩ | ⟨-, -, -, rfl⟩ | ⟨-, -, -, rfl⟩ <;> exact hsame rfl rfl rfl rfl rfl rfl
  | conv v => cases ht; exact sameDataPhase_unlessHalted (sameDataPhase_convService v s)
  | overrun => cases ht; exact sameDataPhase_unlessHalted (hsame rfl rfl rfl rfl rfl rfl)
  | resetIn => cases ht; exact ⟨rfl, rfl, nofun⟩
  | cfgThreshold v => cases ht; exact sameDataPhase_unlessHalted (hsame rfl rfl rfl rfl rfl rfl)
  | samplerStart => cases ht; exact sameDataPhase_unlessHalted (sameDataPhase_samplerStart s)
  | env m => exact absurd he nofun

theorem sameDataPhase_breachService (s : State) : SameDataPhase s (breachService s) := by
  rw [breachService_eq]
  exact ⟨rfl, rfl, fun hp => ⟨hp, rfl, rfl, rfl⟩⟩

theorem sameDataPhase_overrunService (s : State) : SameDataPhase s (overrunService s) := by
  rw [overrunService_eq]
  exact ⟨rfl, rfl, fun hp => ⟨hp, rfl, rfl, rfl⟩⟩

/-- An edge ends the data phase or opens a header. -/
theorem sameDataPhase_edgeService (s : State) : SameDataPhase s (edgeService s) := by
  rw [edgeService_eq]
  split_ifs
  · exact .refl s
  · exact ⟨rfl, rfl, nofun⟩
  · rw [csRiseService_eq]
    exact ⟨rfl, rfl, nofun⟩

/-- A data byte changes a cell only where a SEND writes. -/
theorem byteClockService_cell {b : Byte} {s : State} {a : Addr} (hp : s.phase = .stream)
    (h : cell (byteClockService b s) a ≠ cell s a) : SendsAt a s := by
  simp only [cell, byteClockService_blank, byteClockService_mem] at h
  split_ifs at h with hsend
  · obtain ⟨hop, hvalid, hout⟩ := hsend
    have haddr : s.cursor.addr = a := by
      by_contra hne
      have hne' : a.toNat ≠ s.cursor.addr.toNat := fun heq => hne (BitVec.eq_of_toNat_eq heq).symm
      rw [Memory.read?_write_other _ _ _ _ _ hne'] at h
      exact h rfl
    exact ⟨hp, hop, hvalid, haddr, haddr ▸ hout⟩
  · exact absurd rfl h

/-- The service of a byte changes a cell only as a data byte of a SEND. -/
theorem byteService_cell {s t : State} {a : Addr} (ht : byteService s = .next t) (h : cell t a ≠ cell s a) :
    SendsAt a s := by
  rcases byteService_cases ht with ⟨-, i, l, hi⟩ | ⟨-, rfl⟩ | ⟨-, rfl⟩ | ⟨hp, rfl⟩ | rfl
  · exact absurd ((exec_frame hi).cell a) h
  · exact absurd ((readCommand_frame _ s).cell a) h
  · exact absurd ((readAddrLow_frame _ s).cell a) h
  · exact byteClockService_cell hp h
  · exact absurd rfl h

/-- The rounds of the arbiter change a cell only as a data byte of a SEND, of the data phase open when they begin. -/
theorem arbitrate_cell {n : Nat} {s t : State} {a : Addr} (ht : arbitrate n s = .next t) (h : cell t a ≠ cell s a) :
    SendsAt a s := by
  induction n generalizing s with
  | zero => cases ht; exact absurd rfl h
  | succ n ih =>
    cases hpick : arbiter s with
    | none =>
      simp only [arbitrate, hpick] at ht
      cases ht
      exact absurd rfl h
    | some src =>
      rw [arbitrate_of_pick' hpick] at ht
      obtain ⟨u, hu, hu'⟩ := andThen_eq_next ht
      have hlater : SameDataPhase s u → SendsAt a s := fun hsame => hsame.sendsAt (ih hu' (by rwa [hsame.cell]))
      obtain ⟨-, ⟨rfl, -⟩ | ⟨rfl, -⟩ | ⟨rfl, -⟩ | ⟨rfl, hq⟩⟩ := arbiter_pick hpick
      · cases hu; exact hlater (sameDataPhase_breachService s)
      · cases hu; exact hlater (sameDataPhase_overrunService s)
      · cases hu; exact hlater (sameDataPhase_edgeService s)
      · cases (arbitrate_quiet (byteService_quiet hq hu) n).symm.trans hu'
        obtain ⟨hp, hop, hvalid, haddr, hout⟩ := byteService_cell hu h
        exact ⟨hp, hop, hvalid, haddr, hout⟩

/-- Settles O49: presentation keeps cells and data phase, and the rounds change a cell only by a SEND's data byte. -/
theorem onlySendWritesRegisterFile : Obligations.OnlySendWritesRegisterFile := by
  intro s t now later a _ hin hnow ht hcell
  rw [step_cons hin] at ht
  obtain ⟨u, hu, hu'⟩ := andThen_eq_next ht
  have hpresented : SameDataPhase { s with inputs := later } u :=
    presentAll_rel .refl .trans (fun e he _ _ => present_sameDataPhase (hnow e he)) hu
  have hsame : SameDataPhase s u := ⟨hpresented.mem, hpresented.blank, hpresented.dataPhase⟩
  obtain ⟨hp, hop, hvalid, haddr, hout⟩ := hsame.sendsAt (arbitrate_cell hu' (by rwa [hsame.cell]))
  exact ⟨hp, hop, hvalid, haddr, hout⟩

end Sys2Proof.Machine
end

section
/-! SUPPORT. What the address decoder answers outside the overlays, and the whole READ. -/

namespace Sys2Proof.Machine

open Sys2Proof

/-! ### Outside the overlays (20_memory.md R62, R73) -/

/-- The Register File answers what is neither STATUS_ADDR nor in the Sample Array's window. -/
theorem inOverlay_eq_false {s : State} {a : Addr} (hstatus : a ≠ s.cfg.statusAddr)
    (hwindow : ¬ (s.cfg.sampleBase.toNat ≤ a.toNat ∧
      a.toNat < s.cfg.sampleBase.toNat + 5 * s.cfg.sampleBytes)) : inOverlay s a = false := by
  have hbeyond : s.cfg.sampleBase.toNat ≤ a.toNat →
      Config.slots * s.cfg.sampleBytes ≤ a.toNat - s.cfg.sampleBase.toNat := by
    simp only [Config.slots]
    omega
  simpa [inOverlay_eq, hstatus] using hbeyond

/-- A fetch that no overlay answers is one call. -/
theorem fetchCall_of_not_inOverlay {s : State} {a : Addr} (h : inOverlay s a = false) (v : Byte) :
    fetchCall s a v = [.call (.registerRead a v)] := by
  simp [fetchCall, h]

/-- Settles O13: such an address lies in no overlay, so the fetch is the call and the cell's byte its answer. -/
theorem decoderAsksRegisterFile : Obligations.DecoderAsksRegisterFile := by
  intro s a hstatus hwindow
  have ho : inOverlay s a = false := inOverlay_eq_false hstatus hwindow
  exact ⟨(memReadCalls_eq s a).trans (fetchCall_of_not_inOverlay ho _), fun _ => memReadByte_of_cell ho⟩

/-! ### READ, the whole header (41_read.md R150, R151) -/

/-- What both header bytes of a READ leave: the byte of `{hi7, lo}` outgoing, the cursor on the next address. -/
def readOpened (hi7 : Page) (lo : Byte) (s : State) : State :=
  { s with
    ahi := hi7, rxdata := lo, shift := lo, bitcnt := 0#3, misoBits := Config.handshakeByte, bytePend := false,
    txdata := memReadByte s (readAddress hi7 lo),
    trace := s.trace ++ [.exchange lo Config.handshakeByte] ++ memReadCalls s (readAddress hi7 lo),
    env := { s.env with draws := s.env.draws + (memReadCalls s (readAddress hi7 lo)).length },
    cursor := { valid := true, addr := nextAddr (readAddress hi7 lo) },
    op := .read, byteIe := true, phase := .stream }

/-- The command service and the exchange of the low byte change nothing the fetch looks at. -/
theorem exec_read (hi7 : Page) (lo : Byte) (s : State) : exec (.read hi7 lo) s = .next (readOpened hi7 lo s) := rfl

section
variable {s : State} (hi7 : Page) (lo c : Byte) (later : List Instant)

/-- After its header a READ fetches from the next address on. -/
theorem readOpened_fetching (h : AtCommand s) :
    Fetching (nextAddr (readAddress hi7 lo)) (readOpened hi7 lo (afterByte c later s)) := by
  obtain ⟨-, hsel, -, hawd, hovr, hcs, -⟩ := h
  exact ⟨⟨rfl, rfl, hsel, rfl, hawd, hovr, hcs, rfl⟩, .inl rfl, rfl⟩

/-- The entries of a READ's header: both exchanges, the first fetch. -/
theorem readOpened_trace :
    (readOpened hi7 lo (afterByte c later s)).trace =
      s.trace ++ [.exchange c s.txdata, .exchange lo 0xAA#8] ++
        fetchCall s (readAddress hi7 lo) (memReadByte s (readAddress hi7 lo)) := by
  rw [← memReadCalls_eq]
  simp only [readOpened, afterByte, List.append_assoc]
  rfl

/-- A later fetch of a READ answers as the decoder did before the transfer. -/
theorem fetchAnswer_readOpened {b : Addr} {v : Byte}
    (h : FetchAnswer (readOpened hi7 lo (afterByte c later s)) b v) : FetchAnswer s b v :=
  h.congr rfl rfl rfl rfl

end

/-! ### The end of a transfer with nothing pending (40_framing.md R126) -/

theorem csRiseService_phase (s : State) : (csRiseService s).phase = .idle := rfl

/-- No commit, no pop. -/
theorem csRiseService_trace {s : State} (hsend : s.sendPending = false) (hrecv : s.recvPending = false) :
    (csRiseService s).trace = s.trace := by
  simp [csRiseService_eq, hsend, hrecv]

/-- Neither commit nor pop changes a cell (log 8). -/
theorem csRiseService_cell (s : State) (b : Addr) : cell (csRiseService s) b = cell s b := by
  rw [csRiseService_eq]
  rfl

/-! ### The whole READ (41_read.md R153) -/

/-- A first fetch and those from the next address on make up one range. -/
theorem FetchAnswer.range {s : State} {a : Addr} {f : Nat → Byte} {n : Nat} (hfirst : FetchAnswer s a (f 0))
    (hlater : ∀ j, j < n → FetchAnswer s (addrPlus (nextAddr a) j) (f (j + 1))) :
    ∀ j, j ≤ n → FetchAnswer s (addrPlus a j) (f j)
  | 0, _ => by rwa [addrPlus_zero]
  | j + 1, hj => by
    rw [← addrPlus_next]
    exact hlater j hj

/-- Settles O53: the header step, the data phase by `runSteps_fetches`, the rising edge. -/
theorem readTransfer : Obligations.ReadTransfer := by
  intro s hi7 lo ms later a hinv hcmd ha hin
  obtain rfl : a = readAddress hi7 lo := ha
  have ⟨hphase, _, _, _⟩ := hcmd
  have hheader := hinv.headerOpen (.inl hphase)
  -- the header
  have hstep : step s = .next (readOpened hi7 lo (afterByte (1#1 ++ hi7) (byteEvents ms ++ [.csRise] :: later) s)) :=
    step_read_header hcmd hin
  have hopen := readOpened_fetching hi7 lo (1#1 ++ hi7) (byteEvents ms ++ [.csRise] :: later) hcmd
  have ⟨_, _, _, _, hq⟩ := hopen.atData
  -- the data bytes
  obtain ⟨u, f, hrun, hf0, htrace, hans, hrest, hframe⟩ := runSteps_fetches ms hopen rfl
  have hf0' : f 0 = memReadByte s (readAddress hi7 lo) := hf0
  have hrange : ∀ j, j ≤ ms.length → FetchAnswer s (addrPlus (readAddress hi7 lo) j) (f j) :=
    .range (hf0' ▸ fetchAnswer_memReadByte s _) fun j hj => fetchAnswer_readOpened _ _ _ _ (hans j hj)
  -- the rising edge
  have hrise : step u = .next (csRiseService { u with inputs := later }) :=
    step_rise (.inr (.inr hframe.phase)) (hframe.quiet hq) hrest
  have hclosed : (csRiseService { u with inputs := later }).trace = u.trace :=
    csRiseService_trace (hframe.sendPending.trans hheader.sendPending) (hframe.recvPending.trans hheader.recvPending)
  refine ⟨csRiseService { u with inputs := later }, f, ?_, ?_, fun j v hj ho => (hrange j hj).known ho v,
    fun j hj => (hrange j hj).overlay, csRiseService_phase _, fun b => (csRiseService_cell _ b).trans (hframe.cell b)⟩
  · rw [runSteps_succ _ hstep, hrun, runSteps_succ _ hrise, runSteps_zero]
  · have hcfg : (readOpened hi7 lo (afterByte (1#1 ++ hi7) (byteEvents ms ++ [.csRise] :: later) s)).cfg = s.cfg := rfl
    rw [hclosed, htrace, readOpened_trace, hf0', fetchTrace_congr hcfg, fetchTrace_nextAddr]

end Sys2Proof.Machine
end

section
/-! SUPPORT. The fields of a command byte, the commands a one-byte header decodes to, and the header's encoding: the two
round trips, the parser, the opcode table and the header's length (30_encoding.md R90 to R105). -/

namespace Sys2Proof

/-! ### The fields of a command byte (30_encoding.md R91 to R93) -/

@[simp] theorem opcOf_formatN (opc arg4 : Nibble) : opcOf (formatN opc arg4) = opc :=
  BitVec.extractLsb'_append_eq_left

@[simp] theorem arg4Of_formatN (opc arg4 : Nibble) : arg4Of (formatN opc arg4) = arg4 :=
  BitVec.extractLsb'_append_eq_right

/-- A command byte is made of its operation code and its low nibble. -/
theorem formatN_fields (c : Byte) : formatN (opcOf c) (arg4Of c) = c :=
  (BitVec.extractLsb'_append_extractLsb'_eq_extractLsb' rfl).trans BitVec.extractLsb'_eq_self

theorem opcOf_toNat (c : Byte) : (opcOf c).toNat = c.toNat / 16 := by
  have hc := c.isLt
  simp only [opcOf, BitVec.extractLsb'_toNat, Nat.shiftRight_eq_div_pow]
  omega

theorem arg4Of_toNat (c : Byte) : (arg4Of c).toNat = c.toNat % 16 := by
  simp [arg4Of, BitVec.extractLsb'_toNat]

theorem hi7Of_toNat (c : Byte) : (hi7Of c).toNat = c.toNat % 0x80 := by
  simp [hi7Of, BitVec.extractLsb'_toNat]

/-- Bit 7 is the command byte's most significant bit, so format A is 0x80 and above. -/
theorem isFormatA_iff (c : Byte) : isFormatA c = true ↔ 0x80 ≤ c.toNat :=
  (Bool.eq_iff_iff.mp (BitVec.msb_eq_decide c)).trans decide_eq_true_iff

theorem isFormatA_eq_false_iff (c : Byte) : isFormatA c = false ↔ c.toNat < 0x80 := by
  rw [← Bool.not_eq_true, isFormatA_iff, Nat.not_le]

theorem isFormatA_eq_false_iff_opcOf (c : Byte) : isFormatA c = false ↔ (opcOf c).toNat < 8 := by
  rw [isFormatA_eq_false_iff, opcOf_toNat]
  omega

@[simp] theorem isFormatA_formatN {opc : Nibble} (h : opc.toNat < 8) (arg4 : Nibble) :
    isFormatA (formatN opc arg4) = false := by
  rwa [isFormatA_eq_false_iff_opcOf, opcOf_formatN]

/-- A format A byte is made of its bit 7 and its page. -/
theorem formatA_hi7Of {c : Byte} (h : isFormatA c = true) : formatA (hi7Of c) = c := by
  have hbit : c.extractLsb' 7 1 = 1#1 := by
    have hc := c.isLt
    have hge := (isFormatA_iff c).mp h
    apply BitVec.eq_of_toNat_eq
    simp only [BitVec.extractLsb'_toNat, Nat.shiftRight_eq_div_pow, BitVec.toNat_ofNat]
    omega
  rw [formatA, hi7Of, ← hbit]
  exact (BitVec.extractLsb'_append_extractLsb'_eq_extractLsb' rfl).trans BitVec.extractLsb'_eq_self

/-- The command bytes of format N, by operation code (R97). -/
theorem formatN_cases {c : Byte} (hN : isFormatA c = false) :
    ∃ arg4, c = formatN 0#4 arg4 ∨ c = formatN 1#4 arg4 ∨ c = formatN 2#4 arg4 ∨ c = formatN 3#4 arg4 ∨
      c = formatN 4#4 arg4 ∨ c = formatN 5#4 arg4 ∨ c = formatN 6#4 arg4 ∨ c = formatN 7#4 arg4 := by
  have hcodes : ∀ opc : Nibble, opc.toNat < 8 →
      opc = 0#4 ∨ opc = 1#4 ∨ opc = 2#4 ∨ opc = 3#4 ∨ opc = 4#4 ∨ opc = 5#4 ∨ opc = 6#4 ∨ opc = 7#4 := by decide
  refine ⟨arg4Of c, ?_⟩
  rcases hcodes _ ((isFormatA_eq_false_iff_opcOf c).mp hN) with h | h | h | h | h | h | h | h <;>
    simp [← h, formatN_fields]

/-! ### What a one-byte header decodes to (30_encoding.md R97, R99, R100, R105) -/

section
variable (arg4 : Nibble)

@[simp] theorem decodeFormatN_opc0 : decodeFormatN (formatN 0#4 arg4) = .send arg4 := by simp [decodeFormatN]
@[simp] theorem decodeFormatN_opc1 : decodeFormatN (formatN 1#4 arg4) = .enable arg4 := by simp [decodeFormatN]
@[simp] theorem decodeFormatN_opc2 : decodeFormatN (formatN 2#4 arg4) = .disable arg4 := by simp [decodeFormatN]
@[simp] theorem decodeFormatN_opc3 : decodeFormatN (formatN 3#4 arg4) = .recv arg4 := by simp [decodeFormatN]
@[simp] theorem decodeFormatN_opc4 : decodeFormatN (formatN 4#4 arg4) = decodeOpc4 arg4 := by simp [decodeFormatN]
@[simp] theorem decodeFormatN_opc5 : decodeFormatN (formatN 5#4 arg4) = .unsup5 arg4 := by simp [decodeFormatN]
@[simp] theorem decodeFormatN_opc6 : decodeFormatN (formatN 6#4 arg4) = .unsup6to7 6#4 arg4 := by simp [decodeFormatN]
@[simp] theorem decodeFormatN_opc7 : decodeFormatN (formatN 7#4 arg4) = .unsup6to7 7#4 arg4 := by simp [decodeFormatN]

end

@[simp] theorem decodeOpc4_reset : decodeOpc4 15#4 = .reset := rfl

@[simp] theorem decodeOpc4_test14 : decodeOpc4 14#4 = .test14 := rfl

theorem decodeOpc4_test0to7 {arg4 : Nibble} (h7 : arg4.toNat ≤ 7) : decodeOpc4 arg4 = .test0to7 arg4 := by
  have h15 : arg4 ≠ 15#4 := by bv_omega
  have h14 : arg4 ≠ 14#4 := by bv_omega
  simp [decodeOpc4, *]

theorem decodeOpc4_test8to11 {arg4 : Nibble} (h8 : 8 ≤ arg4.toNat) (h11 : arg4.toNat ≤ 11) :
    decodeOpc4 arg4 = .test8to11 arg4 := by
  have h15 : arg4 ≠ 15#4 := by bv_omega
  have h14 : arg4 ≠ 14#4 := by bv_omega
  have h7 : ¬ arg4.toNat ≤ 7 := by omega
  simp [decodeOpc4, *]

theorem decodeOpc4_test12to13 {arg4 : Nibble} (h12 : 12 ≤ arg4.toNat) (h13 : arg4.toNat ≤ 13) :
    decodeOpc4 arg4 = .test12to13 arg4 := by
  have h15 : arg4 ≠ 15#4 := by bv_omega
  have h14 : arg4 ≠ 14#4 := by bv_omega
  have h7 : ¬ arg4.toNat ≤ 7 := by omega
  have h11 : ¬ arg4.toNat ≤ 11 := by omega
  simp [decodeOpc4, *]

/-- The low nibbles of operation code 4, by row of the opcode table. -/
theorem opc4_cases (arg4 : Nibble) : arg4 = 15#4 ∨ arg4 = 14#4 ∨ arg4.toNat ≤ 7 ∨
    (8 ≤ arg4.toNat ∧ arg4.toNat ≤ 11) ∨ (12 ≤ arg4.toNat ∧ arg4.toNat ≤ 13) := by
  bv_omega

/-! ### The parser on each operation code (30_encoding.md R104) -/

theorem classify_formatA {c : Byte} (hA : isFormatA c = true) : classify c = .read (hi7Of c) := if_pos hA

section
variable (arg4 : Nibble)

theorem classify_opc0 : classify (formatN 0#4 arg4) = .send := by simp [classify]
theorem classify_opc1 : classify (formatN 1#4 arg4) = .enable arg4 := by simp [classify]
theorem classify_opc2 : classify (formatN 2#4 arg4) = .disable arg4 := by simp [classify]
theorem classify_opc3 : classify (formatN 3#4 arg4) = .recv := by simp [classify]

/-- Operation code 4 is TEST but for RESET's low nibble. -/
theorem classify_opc4 : classify (formatN 4#4 arg4) = if arg4 = 15#4 then .reset else .test := by simp [classify]

theorem classify_opc5 : classify (formatN 5#4 arg4) = .unsup := by simp [classify]
theorem classify_opc6 : classify (formatN 6#4 arg4) = .unsup := by simp [classify]
theorem classify_opc7 : classify (formatN 7#4 arg4) = .unsup := by simp [classify]

end

/-! ### Well-formedness, encoding and class of what is decoded -/

@[simp] theorem wf_decodeOpc4 (arg4 : Nibble) : (decodeOpc4 arg4).wf = true := by
  rcases opc4_cases arg4 with rfl | rfl | h7 | ⟨h8, h11⟩ | ⟨h12, h13⟩
  · rfl
  · rfl
  · simp [decodeOpc4_test0to7 h7, Instr.wf, h7]
  · simp [decodeOpc4_test8to11 h8 h11, Instr.wf, h8, h11]
  · simp [decodeOpc4_test12to13 h12 h13, Instr.wf, h12, h13]

@[simp] theorem encode_decodeOpc4 (arg4 : Nibble) : encode (decodeOpc4 arg4) = [formatN 4#4 arg4] := by
  rcases opc4_cases arg4 with rfl | rfl | h7 | ⟨h8, h11⟩ | ⟨h12, h13⟩
  · rfl
  · rfl
  · rw [decodeOpc4_test0to7 h7, encode]
  · rw [decodeOpc4_test8to11 h8 h11, encode]
  · rw [decodeOpc4_test12to13 h12 h13, encode]

@[simp] theorem commandClass_decodeOpc4 (arg4 : Nibble) :
    (decodeOpc4 arg4).commandClass = if arg4 = 15#4 then .reset else .test := by
  by_cases h15 : arg4 = 15#4
  · rw [h15]; rfl
  · rw [if_neg h15]
    rcases opc4_cases arg4 with h | rfl | h7 | ⟨h8, h11⟩ | ⟨h12, h13⟩
    · exact absurd h h15
    · rfl
    · rw [decodeOpc4_test0to7 h7, Instr.commandClass]
    · rw [decodeOpc4_test8to11 h8 h11, Instr.commandClass]
    · rw [decodeOpc4_test12to13 h12 h13, Instr.commandClass]

theorem wf_decodeFormatN {c : Byte} (hN : isFormatA c = false) : (decodeFormatN c).wf = true := by
  obtain ⟨arg4, rfl | rfl | rfl | rfl | rfl | rfl | rfl | rfl⟩ := formatN_cases hN
  · rw [decodeFormatN_opc0, Instr.wf]
  · rw [decodeFormatN_opc1, Instr.wf]
  · rw [decodeFormatN_opc2, Instr.wf]
  · rw [decodeFormatN_opc3, Instr.wf]
  · rw [decodeFormatN_opc4, wf_decodeOpc4]
  · rw [decodeFormatN_opc5, Instr.wf]
  · rw [decodeFormatN_opc6]; rfl
  · rw [decodeFormatN_opc7]; rfl

theorem encode_decodeFormatN {c : Byte} (hN : isFormatA c = false) : encode (decodeFormatN c) = [c] := by
  obtain ⟨arg4, rfl | rfl | rfl | rfl | rfl | rfl | rfl | rfl⟩ := formatN_cases hN
  · rw [decodeFormatN_opc0, encode]
  · rw [decodeFormatN_opc1, encode]
  · rw [decodeFormatN_opc2, encode]
  · rw [decodeFormatN_opc3, encode]
  · rw [decodeFormatN_opc4, encode_decodeOpc4]
  · rw [decodeFormatN_opc5, encode]
  · rw [decodeFormatN_opc6, encode]
  · rw [decodeFormatN_opc7, encode]

/-- The decoder and the parser R104 agree on a one-byte header. -/
theorem commandClass_decodeFormatN {c : Byte} (hN : isFormatA c = false) :
    (decodeFormatN c).commandClass = classify c := by
  obtain ⟨arg4, rfl | rfl | rfl | rfl | rfl | rfl | rfl | rfl⟩ := formatN_cases hN
  · rw [decodeFormatN_opc0, classify_opc0, Instr.commandClass]
  · rw [decodeFormatN_opc1, classify_opc1, Instr.commandClass]
  · rw [decodeFormatN_opc2, classify_opc2, Instr.commandClass]
  · rw [decodeFormatN_opc3, classify_opc3, Instr.commandClass]
  · rw [decodeFormatN_opc4, classify_opc4, commandClass_decodeOpc4]
  · rw [decodeFormatN_opc5, classify_opc5, Instr.commandClass]
  · rw [decodeFormatN_opc6, classify_opc6, Instr.commandClass]
  · rw [decodeFormatN_opc7, classify_opc7, Instr.commandClass]

/-! ### The two round trips -/

/-- A one-byte header in front of any bytes. -/
theorem decode_formatN_byte {opc arg4 : Nibble} {i : Instr} (hopc : opc.toNat < 8)
    (hi : decodeFormatN (formatN opc arg4) = i) (rest : List Byte) :
    decode (formatN opc arg4 :: rest) = .ok (i, rest) := by
  rw [decode_formatN (isFormatA_formatN hopc arg4), hi]

/-- Operation code 4 leaves the row to the low nibble. -/
theorem decode_opc4_byte {arg4 : Nibble} {i : Instr} (hi : decodeOpc4 arg4 = i) (rest : List Byte) :
    decode (formatN 4#4 arg4 :: rest) = .ok (i, rest) :=
  decode_formatN_byte (by decide) ((decodeFormatN_opc4 arg4).trans hi) rest

/-- Settles O5: one case per row; the rows of operation code 4 are told apart by the low nibble. -/
theorem decodeOfEncode : Obligations.DecodeOfEncode := by
  intro i rest hwf
  cases i with
  | read hi7 lo8 =>
    exact (decode_formatA (Machine.isFormatA_read hi7) lo8 rest).trans (by rw [Machine.hi7Of_read])
  | send arg4 => exact decode_formatN_byte (by decide) (decodeFormatN_opc0 arg4) rest
  | enable id => exact decode_formatN_byte (by decide) (decodeFormatN_opc1 id) rest
  | disable id => exact decode_formatN_byte (by decide) (decodeFormatN_opc2 id) rest
  | recv arg4 => exact decode_formatN_byte (by decide) (decodeFormatN_opc3 arg4) rest
  | reset => exact decode_opc4_byte decodeOpc4_reset rest
  | test0to7 arg4 =>
    have h7 : arg4.toNat ≤ 7 := of_decide_eq_true hwf
    exact decode_opc4_byte (decodeOpc4_test0to7 h7) rest
  | test8to11 arg4 =>
    obtain ⟨h8, h11⟩ : 8 ≤ arg4.toNat ∧ arg4.toNat ≤ 11 := by simpa [Instr.wf] using hwf
    exact decode_opc4_byte (decodeOpc4_test8to11 h8 h11) rest
  | test12to13 arg4 =>
    obtain ⟨h12, h13⟩ : 12 ≤ arg4.toNat ∧ arg4.toNat ≤ 13 := by simpa [Instr.wf] using hwf
    exact decode_opc4_byte (decodeOpc4_test12to13 h12 h13) rest
  | test14 => exact decode_opc4_byte decodeOpc4_test14 rest
  | unsup5 arg4 => exact decode_formatN_byte (by decide) (decodeFormatN_opc5 arg4) rest
  | unsup6to7 opc arg4 =>
    obtain rfl | rfl : opc = 6#4 ∨ opc = 7#4 := by simpa [Instr.wf] using hwf
    · exact decode_formatN_byte (by decide) (decodeFormatN_opc6 arg4) rest
    · exact decode_formatN_byte (by decide) (decodeFormatN_opc7 arg4) rest

/-- Settles O6: for each length of the header, the command byte is made of the fields that stay in the term. -/
theorem encodeOfDecode : Obligations.EncodeOfDecode := by
  intro bytes i rest h
  rcases decode_ok_cases h with ⟨c, rfl, hN, rfl⟩ | ⟨c, lo, rfl, hA, rfl⟩
  · exact ⟨wf_decodeFormatN hN, by simp [encode_decodeFormatN hN]⟩
  · exact ⟨rfl, by simp [encode, formatA_hi7Of hA]⟩

/-- Settles O1: each word is the encoding of its command. -/
theorem sampleHeadersDecode : Obligations.SampleHeadersDecode :=
  ⟨decodeOfEncode (.read 0x00#7 0x23#8) [] rfl, decodeOfEncode (.read 0x7F#7 0xFF#8) [] rfl,
    decodeOfEncode (.send 15#4) [] rfl, decodeOfEncode (.enable 5#4) [] rfl, decodeOfEncode (.disable 15#4) [] rfl,
    decodeOfEncode (.recv 10#4) [] rfl, decodeOfEncode .reset [] rfl, decodeOfEncode (.test0to7 7#4) [] rfl,
    decodeOfEncode (.test8to11 11#4) [] rfl, decodeOfEncode (.test12to13 13#4) [] rfl, decodeOfEncode .test14 [] rfl,
    decodeOfEncode (.unsup5 0#4) [] rfl, decodeOfEncode (.unsup6to7 7#4 15#4) [] rfl⟩

/-! ### The parser on ranges of command bytes (30_encoding.md R97, R104) -/

/-- The page of a READ, by the command byte's number. -/
theorem hi7Of_eq_sub {c : Byte} (h : 0x80 ≤ c.toNat) : hi7Of c = BitVec.ofNat 7 (c.toNat - 0x80) := by
  apply BitVec.eq_of_toNat_eq
  rw [hi7Of_toNat, BitVec.toNat_ofNat]
  omega

/-- The sixteen command bytes of one operation code, by number. -/
theorem eq_formatN_of_range {c : Byte} (opc : Nibble) (hlow : 16 * opc.toNat ≤ c.toNat)
    (hhigh : c.toNat ≤ 16 * opc.toNat + 15) : c = formatN opc (BitVec.ofNat 4 (c.toNat - 16 * opc.toNat)) := by
  have hopc : opcOf c = opc := Machine.opcOf_eq_of_range hlow (Nat.lt_succ_of_le hhigh)
  have harg : arg4Of c = BitVec.ofNat 4 (c.toNat - 16 * opc.toNat) := by
    apply BitVec.eq_of_toNat_eq
    rw [arg4Of_toNat, BitVec.toNat_ofNat]
    omega
  calc
    c = formatN (opcOf c) (arg4Of c) := (formatN_fields c).symm
    _ = _ := by rw [hopc, harg]

/-- Settles O2: each range of R97 has the bytes of one operation code, the last one those of three; and the decoder
gives each format its class. -/
theorem commandByteClassified : Obligations.CommandByteClassified := by
  refine ⟨fun c => ⟨fun h => ?read, fun h => ?send, fun ⟨hlow, hhigh⟩ => ?enable,
    fun ⟨hlow, hhigh⟩ => ?disable, fun ⟨hlow, hhigh⟩ => ?recv, fun h => ?reset, fun ⟨hlow, hhigh⟩ => ?test,
    fun ⟨hlow, hhigh⟩ => ?unsup⟩,
    fun c following i rest h => ?agrees⟩
  case read => rw [classify_formatA ((isFormatA_iff c).mpr h), hi7Of_eq_sub h]
  case send => exact (congrArg classify (eq_formatN_of_range 0#4 (Nat.zero_le _) h)).trans (classify_opc0 _)
  case enable => exact (congrArg classify (eq_formatN_of_range 1#4 hlow hhigh)).trans (classify_opc1 _)
  case disable => exact (congrArg classify (eq_formatN_of_range 2#4 hlow hhigh)).trans (classify_opc2 _)
  case recv => exact (congrArg classify (eq_formatN_of_range 3#4 hlow hhigh)).trans (classify_opc3 _)
  case reset =>
    rw [BitVec.eq_of_toNat_eq (y := formatN 4#4 15#4) h]
    exact classify_opc4 15#4
  case test =>
    have harg : BitVec.ofNat 4 (c.toNat - 0x40) ≠ 15#4 := by bv_omega
    rw [eq_formatN_of_range 4#4 hlow (hhigh.trans (by decide)), classify_opc4]
    exact if_neg harg
  case unsup =>
    have hcodes : c.toNat ≤ 0x5F ∨ (0x60 ≤ c.toNat ∧ c.toNat ≤ 0x6F) ∨ 0x70 ≤ c.toNat := by omega
    rcases hcodes with h5 | ⟨h6, h6'⟩ | h7
    · rw [eq_formatN_of_range 5#4 hlow h5, classify_opc5]
    · rw [eq_formatN_of_range 6#4 h6 h6', classify_opc6]
    · rw [eq_formatN_of_range 7#4 h7 hhigh, classify_opc7]
  case agrees =>
    rcases decode_ok_cases h with ⟨c', hc, hN, rfl⟩ | ⟨c', lo, hc, hA, rfl⟩ <;> cases hc
    · exact commandClass_decodeFormatN hN
    · exact (classify_formatA hA).symm

/-! ### The header's length and the opcode table (30_encoding.md R91, R94, R105) -/

/-- Settles O4: bit 7 is the decoder's only test of the length. -/
theorem headerLengthFromBit7 : Obligations.HeaderLengthFromBit7 :=
  ⟨decode_nil, fun _ hA => decode_short hA, fun _ lo rest hA => ⟨_, decode_formatA hA lo rest⟩,
    fun _ rest hN => ⟨_, decode_formatN hN rest⟩⟩

/-- Two bytes always hold a whole header. -/
theorem decode_pair_ok (c lo : Byte) : ∃ i rest, decode [c, lo] = .ok (i, rest) := by
  cases h : isFormatA c with
  | true => exact ⟨_, _, decode_formatA h lo []⟩
  | false => exact ⟨_, _, decode_formatN h [lo]⟩

/-- Every well-formed command's header selects the command's own row. -/
theorem headerSelectsRow : ∀ i : Instr, Laws.HeaderSelectsRow.Statement i
  | .read hi7 lo8 => Laws.HeaderSelectsRow.read hi7 lo8
  | .send arg4 => Laws.HeaderSelectsRow.send arg4
  | .enable id => Laws.HeaderSelectsRow.enable id
  | .disable id => Laws.HeaderSelectsRow.disable id
  | .recv arg4 => Laws.HeaderSelectsRow.recv arg4
  | .reset => Laws.HeaderSelectsRow.reset
  | .test0to7 arg4 => Laws.HeaderSelectsRow.test0to7 arg4
  | .test8to11 arg4 => Laws.HeaderSelectsRow.test8to11 arg4
  | .test12to13 arg4 => Laws.HeaderSelectsRow.test12to13 arg4
  | .test14 => Laws.HeaderSelectsRow.test14
  | .unsup5 arg4 => Laws.HeaderSelectsRow.unsup5 arg4
  | .unsup6to7 opc arg4 => Laws.HeaderSelectsRow.unsup6to7 opc arg4

/-- Settles O3: the decoded command is well formed, and its own header starts with the byte it was decoded from. -/
theorem oneRowPerCommandByte : Obligations.OneRowPerCommandByte := by
  intro c lo
  obtain ⟨i, rest, hi⟩ := decode_pair_ok c lo
  obtain ⟨hwf, hbytes⟩ := encodeOfDecode _ _ _ hi
  obtain ⟨c', more, hheader, hrow, -⟩ := headerSelectsRow i hwf
  rw [hheader, List.cons_append] at hbytes
  obtain rfl : c' = c := (List.cons.inj hbytes).1
  exact ⟨i, rest, hi, hrow⟩

end Sys2Proof
end

section
/-! SUPPORT. SEND's command service, and the balance of grants and commits along a step: what issues no queue call, the
commands and the edge that do, and the rounds of an instant. -/

namespace Sys2Proof.Machine

open Sys2Proof

/-! ### SEND, command service (42_queue_send_recv.md R165) -/

/-- What SEND leaves when a slot stands at `g`. -/
def sendGranted (g : Addr) (s : State) : State :=
  { s with
    sendPending := true, txdata := s.cfg.ackByte,
    trace := s.trace ++ [.call (.sendPrepare (some g))],
    cursor := { valid := true, addr := g },
    op := .send, byteIe := true, phase := .stream }

/-- What SEND leaves when no slot stands. -/
def sendUngranted (s : State) : State :=
  { s with
    txdata := s.cfg.ackByte,
    trace := s.trace ++ [.call (.sendPrepare none)],
    cursor := { valid := false, addr := s.cursor.addr },
    op := .send, byteIe := true, phase := .stream }

/-- SEND asks once and goes on by the answer. -/
theorem exec_send (arg4 : Nibble) (s : State) : exec (.send arg4) s =
    .next ((adoptSendGrant s.env.sendGrant
      ((s.place s.cfg.ackByte).call (.sendPrepare s.env.sendGrant))).openStream .send) := rfl

theorem exec_send_granted (arg4 : Nibble) {s : State} {g : Addr} (h : s.env.sendGrant = some g) :
    exec (.send arg4) s = .next (sendGranted g s) := by
  rw [exec_send, h]
  rfl

theorem exec_send_ungranted (arg4 : Nibble) {s : State} (h : s.env.sendGrant = none) :
    exec (.send arg4) s = .next (sendUngranted s) := by
  rw [exec_send, h]
  rfl

/-! ### What neither grants nor commits -/

/-- A call that grants a slot or a message, or commits one (40_framing.md R126, R165, R167, R170, R172). -/
def Obs.ofQueue : Obs → Bool
  | .call (.sendPrepare g) => g.isSome
  | .call .sendExecute => true
  | .call (.recvFront g) => g.isSome
  | .call .recvPopFront => true
  | .call (.registerRead _ _) => false
  | .call (.registerWrite _ _) => false
  | .call (.functionEnable _) => false
  | .call (.functionDisable _) => false
  | .call .powerFault => false
  | .call .systemReset => false
  | .exchange _ _ => false

/-- Such a call is one of those the balance counts. -/
theorem Obs.ofQueue_eq (o : Obs) : o.ofQueue =
    (o.isSendGrant || decide (o = .call .sendExecute) || o.isRecvGrant || decide (o = .call .recvPopFront)) := by
  rcases o with (_ | _ | (_ | _) | _ | (_ | _) | _ | _ | _ | _ | _) | _ <;> rfl

/-- From `s` to `t` the pending flags stay and the trace gains entries that neither grant nor commit. -/
structure NoGrant (s t : State) : Prop where
  sendPending : t.sendPending = s.sendPending
  recvPending : t.recvPending = s.recvPending
  trace : ∃ l, t.trace = s.trace ++ l ∧ ∀ o ∈ l, o.ofQueue = false

theorem NoGrant.of_append {s t : State} (l : List Obs) (hl : ∀ o ∈ l, o.ofQueue = false)
    (htrace : t.trace = s.trace ++ l) (hsend : t.sendPending = s.sendPending)
    (hrecv : t.recvPending = s.recvPending) : NoGrant s t :=
  ⟨hsend, hrecv, l, htrace, hl⟩

theorem NoGrant.of_entry {s t : State} (o : Obs) (ho : o.ofQueue = false) (htrace : t.trace = s.trace ++ [o])
    (hsend : t.sendPending = s.sendPending) (hrecv : t.recvPending = s.recvPending) : NoGrant s t :=
  .of_append [o] (List.forall_mem_singleton.2 ho) htrace hsend hrecv

theorem NoGrant.of_same {s t : State} (htrace : t.trace = s.trace) (hsend : t.sendPending = s.sendPending)
    (hrecv : t.recvPending = s.recvPending) : NoGrant s t :=
  .of_append [] nofun (htrace.trans (List.append_nil _).symm) hsend hrecv

theorem NoGrant.refl (s : State) : NoGrant s s := .of_same rfl rfl rfl

theorem noGrant_unlessHalted {f : State → State} {s : State} (hf : NoGrant s (f s)) :
    NoGrant s (unlessHalted f s) := by
  unfold unlessHalted
  split_ifs
  · exact .refl s
  · exact hf

theorem memReadCalls_ofQueue (s : State) (a : Addr) : ∀ o ∈ memReadCalls s a, o.ofQueue = false := by
  unfold memReadCalls
  split_ifs
  · exact nofun
  · exact List.forall_mem_singleton.2 rfl

theorem noGrant_convService (v : Nat) (s : State) : NoGrant s (convService v s) := by
  unfold convService
  split_ifs
  · exact .of_same rfl rfl rfl
  · exact .refl s

/-- The breach that SAMPLER_START settles first is a call of the Fault Reactor only (log 25). -/
theorem noGrant_samplerStart (s : State) : NoGrant s (samplerStart s) := by
  rw [samplerStart_eq]
  refine .of_append _ ?_ rfl rfl rfl
  split_ifs
  · exact List.forall_mem_singleton.2 rfl
  · exact nofun

/-- The presentation of an event that is no reset grants and commits nothing. -/
theorem present_noGrant {e : Event} {s t : State} (he : e ≠ .resetIn) (ht : present e s = .next t) : NoGrant s t := by
  cases e with
  | csFall => rcases presentFall_cases ht with ⟨-, rfl⟩ | ⟨-, -, rfl⟩ <;> exact .of_same rfl rfl rfl
  | csRise => rcases presentRise_cases ht with ⟨-, rfl⟩ | ⟨-, -, -, rfl⟩ <;> exact .of_same rfl rfl rfl
  | byte m => rcases presentByte_cases ht with ⟨-, rfl⟩ | ⟨-, -, -, -, -, rfl⟩ <;> exact .of_entry _ rfl rfl rfl rfl
  | sck b =>
    rcases presentBit_cases ht with ⟨-, rfl⟩ | ⟨-, -, -, rfl⟩ | ⟨-, -, -, rfl⟩
    · exact .refl _
    · exact .of_same rfl rfl rfl
    · exact .of_entry _ rfl rfl rfl rfl
  | conv v => cases ht; exact noGrant_unlessHalted (noGrant_convService v s)
  | overrun => cases ht; exact noGrant_unlessHalted (.of_same rfl rfl rfl)
  | resetIn => exact absurd rfl he
  | cfgThreshold v => cases ht; exact noGrant_unlessHalted (.of_same rfl rfl rfl)
  | samplerStart => cases ht; exact noGrant_unlessHalted (noGrant_samplerStart s)
  | env m => cases ht; cases m <;> exact .of_same rfl rfl rfl

theorem noGrant_breachService (s : State) : NoGrant s (breachService s) := by
  rw [breachService_eq]
  exact .of_entry _ rfl rfl rfl rfl

theorem noGrant_overrunService (s : State) : NoGrant s (overrunService s) := by
  rw [overrunService_eq]
  exact .of_same rfl rfl rfl

theorem noGrant_readAddrLow (lo : Byte) (s : State) : NoGrant s (readAddrLow lo s) :=
  .of_append _ (memReadCalls_ofQueue s _) rfl rfl rfl

/-- A data byte grants and commits nothing: a fetch reads, a SEND writes, the others make no call. -/
theorem noGrant_byteClockService (b : Byte) (s : State) : NoGrant s (byteClockService b s) := by
  cases hop : s.op with
  | read | recv =>
    simp only [byteClockService, hop, streamFetch, curRead]
    split_ifs
    · exact .of_append _ (memReadCalls_ofQueue s _) rfl rfl rfl
    · exact .of_same rfl rfl rfl
  | send =>
    simp only [byteClockService, hop, streamSend, curWrite]
    split_ifs
    · refine .of_append _ ?_ rfl rfl rfl
      split_ifs
      · exact nofun
      · exact List.forall_mem_singleton.2 rfl
    · exact .of_same rfl rfl rfl
  | none | enable | disable | test | unsup =>
    simp only [byteClockService, hop]
    exact .of_same rfl rfl rfl

/-! ### The balance (R175) -/

/-- Entries that neither grant nor commit count for nothing. -/
theorem GrantsBalanced.noGrant {s t : State} (hs : GrantsBalanced s) (h : NoGrant s t) : GrantsBalanced t := by
  obtain ⟨hsend, hrecv, l, htrace, hl⟩ := h
  have hzero : ∀ p : Obs → Bool, (∀ o, o.ofQueue = false → p o = false) → l.countP p = 0 := by
    intro p hp
    exact List.countP_eq_zero.2 fun o ho => by simp [hp o (hl o ho)]
  have hgrant := hzero Obs.isSendGrant fun o ho => by simp_all [Obs.ofQueue_eq]
  have hcommit := hzero (fun o => decide (o = .call .sendExecute)) fun o ho => by simp_all [Obs.ofQueue_eq]
  have hfront := hzero Obs.isRecvGrant fun o ho => by simp_all [Obs.ofQueue_eq]
  have hpop := hzero (fun o => decide (o = .call .recvPopFront)) fun o ho => by simp_all [Obs.ofQueue_eq]
  simpa only [GrantsBalanced, htrace, List.countP_append, hgrant, hcommit, hfront, hpop, hsend, hrecv,
    Nat.add_zero] using hs

/-- A granted `send_prepare()` sets the flag that stands for it. -/
theorem GrantsBalanced.sendGrant {s t : State} {g : Addr} (hs : GrantsBalanced s) (hoff : s.sendPending = false)
    (hon : t.sendPending = true) (hrecv : t.recvPending = s.recvPending)
    (htrace : t.trace = s.trace ++ [.call (.sendPrepare (some g))]) : GrantsBalanced t := by
  simpa [GrantsBalanced, htrace, hoff, hon, hrecv, Obs.isSendGrant, Obs.isRecvGrant] using hs

/-- A granted `recv_front()` sets the flag that stands for it. -/
theorem GrantsBalanced.recvGrant {s t : State} {g : Addr} (hs : GrantsBalanced s) (hoff : s.recvPending = false)
    (hon : t.recvPending = true) (hsend : t.sendPending = s.sendPending)
    (htrace : t.trace = s.trace ++ [.call (.recvFront (some g))]) : GrantsBalanced t := by
  simpa [GrantsBalanced, htrace, hoff, hon, hsend, Obs.isSendGrant, Obs.isRecvGrant] using hs

/-- `CS_RISE` commits what each flag stands for and clears it (R126). -/
theorem GrantsBalanced.csRiseService {s : State} (hs : GrantsBalanced s) : GrantsBalanced (csRiseService s) := by
  rw [csRiseService_eq]
  cases hsend : s.sendPending <;> cases hrecv : s.recvPending <;>
    simpa [GrantsBalanced, hsend, hrecv, Obs.isSendGrant, Obs.isRecvGrant] using hs

theorem GrantsBalanced.edgeService {s : State} (hs : GrantsBalanced s) : GrantsBalanced (edgeService s) := by
  have hcleared : GrantsBalanced { s with csPend := false } := hs
  rw [edgeService_eq]
  split_ifs
  · exact hs
  · exact hcleared.noGrant (.of_same rfl rfl rfl)
  · exact hcleared.csRiseService

/-- A command keeps the balance: SEND and RECV by the answer of their call, the others grant nothing. -/
theorem exec_grantsBalanced {i : Instr} {s t : State} (h : HeaderOpen s) (hs : GrantsBalanced s)
    (ht : exec i s = .next t) : GrantsBalanced t := by
  cases i with
  | read hi7 lo8 =>
    cases ht
    have hexchanged : GrantsBalanced
        { (readCommand hi7 s).exchange lo8 (readCommand hi7 s).txdata with bytePend := false } :=
      hs.noGrant (.of_entry _ rfl rfl rfl rfl)
    exact hexchanged.noGrant (noGrant_readAddrLow lo8 _)
  | send arg4 =>
    cases hg : s.env.sendGrant with
    | none =>
      cases (exec_send_ungranted arg4 hg).symm.trans ht
      exact hs.noGrant (.of_entry _ rfl rfl rfl rfl)
    | some g =>
      cases (exec_send_granted arg4 hg).symm.trans ht
      exact hs.sendGrant h.sendPending rfl rfl rfl
  | recv arg4 =>
    cases hg : s.env.recvGrant with
    | none =>
      cases (exec_recv_ungranted arg4 hg).symm.trans ht
      exact hs.noGrant (.of_entry _ rfl rfl rfl rfl)
    | some g =>
      cases (exec_recv_granted arg4 hg).symm.trans ht
      have hasked : GrantsBalanced { s.call (.recvFront (some g)) with recvPending := true } :=
        hs.recvGrant h.recvPending rfl rfl rfl
      exact hasked.noGrant (.of_append _ (memReadCalls_ofQueue s g) rfl rfl rfl)
  | enable _ | disable _ | reset => cases ht; exact hs.noGrant (.of_entry _ rfl rfl rfl rfl)
  | test0to7 _ | test8to11 _ | test12to13 _ | test14 | unsup5 _ | unsup6to7 _ _ =>
    cases ht
    exact hs.noGrant (.of_same rfl rfl rfl)

/-- The service of a byte keeps the balance. A command grants only where nothing is pending. -/
theorem byteService_grantsBalanced {s t : State} (h : MachineInvariant s) (hs : GrantsBalanced s)
    (ht : byteService s = .next t) : GrantsBalanced t := by
  rcases byteService_cases ht with ⟨hp, i, l, hi⟩ | ⟨-, rfl⟩ | ⟨-, rfl⟩ | ⟨-, rfl⟩ | rfl
  · have hopen := h.headerOpen (.inl hp)
    exact exec_grantsBalanced (s := { s with inputs := l })
      ⟨hopen.selected, hopen.cursor, hopen.sendPending, hopen.recvPending⟩ hs hi
  · exact hs.noGrant (.of_same rfl rfl rfl)
  · exact hs.noGrant (noGrant_readAddrLow _ s)
  · exact hs.noGrant (noGrant_byteClockService _ s)
  · exact hs

/-- One round keeps the balance. -/
theorem service_grantsBalanced {src : Source} {s t : State} (h : InvariantWithin s) (hs : GrantsBalanced s)
    (hpick : arbiter s = some src) (ht : service src s = .next t) : GrantsBalanced t := by
  obtain ⟨hp, ⟨rfl, -⟩ | ⟨rfl, -⟩ | ⟨rfl, -⟩ | ⟨rfl, hq⟩⟩ := arbiter_pick hpick
  · cases ht; exact hs.noGrant (noGrant_breachService s)
  · cases ht; exact hs.noGrant (noGrant_overrunService s)
  · cases ht; exact hs.edgeService
  · have hcleared : InvariantWithin { s with bytePend := false } := ⟨{ h.settled with }, nofun, fun _ => hq⟩
    exact byteService_grantsBalanced (hcleared.invariant hq) hs ht

/-- What an instant keeps of the balance: it is paired with the invariant, which rules a grant out while one is
pending. -/
structure BalancedWithin (s : State) : Prop where
  within : InvariantWithin s
  balanced : GrantsBalanced s

theorem present_balancedWithin {e : Event} {s t : State} (he : e ≠ .resetIn) (ht : present e s = .next t)
    (h : BalancedWithin s) : BalancedWithin t :=
  ⟨present_within ht h.within, h.balanced.noGrant (present_noGrant he ht)⟩

theorem service_balancedWithin {src : Source} {s t : State} (hpick : arbiter s = some src)
    (ht : service src s = .next t) (h : BalancedWithin s) : BalancedWithin t := by
  refine ⟨?_, service_grantsBalanced h.within h.balanced hpick ht⟩
  rcases service_within h.within hpick ht with hinv | ⟨hwithin, -⟩
  · exact hinv.within
  · exact hwithin

/-- Settles O51: presentation grants nothing, and every round of the arbiter keeps the balance within the invariant. -/
theorem commitsMatchGrants : Obligations.CommitsMatchGrants := by
  intro s t now later h hs hin hreset ht
  have hkept : BalancedWithin s → BalancedWithin t := by
    refine step_rel (R := fun a b => BalancedWithin a → BalancedWithin b) (fun _ => id) (fun hab hbc => hbc ∘ hab)
      (fun _ _ ⟨⟨hsettled, hwaits, hhalt⟩, hbal⟩ => ⟨⟨{ hsettled with }, hwaits, hhalt⟩, hbal⟩) ?_
      (fun _ _ _ => service_balancedWithin) ht
    intro now' later' hin' e he _ _
    obtain ⟨rfl, -⟩ := List.cons.inj (hin.symm.trans hin')
    exact present_balancedWithin fun hr => hreset (hr ▸ he)
  exact (hkept ⟨h.within, hs⟩).balanced

end Sys2Proof.Machine
end

section
/-! SUPPORT. The step of a header, rest, the rising edge, and the sequences without a step (40_framing.md). -/

namespace Sys2Proof.Machine

open Sys2Proof

/-! ### The step of a header (R120, R124) -/

/-- A one-byte header runs from the state after its exchange. -/
theorem step_formatN {s : State} {c : Byte} {later : List Instant} (h : AtCommand s) (hN : isFormatA c = false)
    (hin : s.inputs = [.byte c] :: later) : step s = exec (decodeFormatN c) (afterByte c later s) :=
  (step_command h hin).trans (commandService_formatN (s := afterByte c later s) hN)

/-- Both header bytes of a READ run in one step (log 2). -/
theorem step_formatA {s : State} {c lo : Byte} {later : List Instant} (h : AtCommand s) (hA : isFormatA c = true)
    (hin : s.inputs = [.byte c] :: [.byte lo] :: later) :
    step s = exec (.read (hi7Of c) lo) (afterByte c later s) :=
  (step_command h hin).trans (commandService_read (s := afterByte c ([.byte lo] :: later) s) hA rfl rfl)

/-- A READ whose low byte does not stand next waits for it (41_read.md R150). -/
theorem step_formatA_wait {s : State} {c : Byte} {later : List Instant} (h : AtCommand s) (hA : isFormatA c = true)
    (hin : s.inputs = [.byte c] :: later) (hw : waitingByte later = none) :
    step s = .next (readCommand (hi7Of c) (afterByte c later s)) :=
  (step_command h hin).trans (commandService_wait (s := afterByte c later s) hA hw)

/-- Settles O7: the length of the decoded header is the one `step` takes. -/
theorem stepRunsDecodedCommand : Obligations.StepRunsDecodedCommand := by
  constructor
  · intro s c i later h hin hd
    obtain ⟨_, hc, hN, rfl⟩ | ⟨_, _, hc, -, -⟩ := decode_ok_cases hd <;> cases hc
    exact step_formatN h hN hin
  · intro s c lo i later h hin hd
    obtain ⟨_, hc, -, -⟩ | ⟨_, _, hc, hA, rfl⟩ := decode_ok_cases hd <;> cases hc
    exact step_formatA h hA hin

/-- An instant without an event changes nothing in a quiet state. -/
theorem step_empty {s : State} {later : List Instant} (hq : Quiet s) (hin : s.inputs = [] :: later) :
    step s = .next { s with inputs := later } := by
  rw [step_cons hin]
  exact arbitrate_quiet (s := { s with inputs := later }) hq _

/-- What a READ's command byte leaves while its low byte is awaited. -/
def lowByteAwaited (c : Byte) (later : List Instant) (s : State) : State := readCommand (hi7Of c) (afterByte c later s)

/-- The address-low service then completes the header: BYTE_PEND was 0. -/
theorem readAddrLow_lowByteAwaited {s : State} (hbyte : s.bytePend = false) (c lo : Byte) (later : List Instant) :
    readAddrLow lo (afterByte lo later (lowByteAwaited c ([.byte lo] :: later) s)) =
      readOpened (hi7Of c) lo (afterByte c later s) :=
  congrArg (fun b => { readOpened (hi7Of c) lo (afterByte c later s) with bytePend := b }) hbyte

/-- The wait, an empty instant and the address-low service, each a step, run the whole header. -/
theorem runSteps_header_apart {s : State} {c lo : Byte} {later : List Instant} (h : AtCommand s)
    (hA : isFormatA c = true) (hin : s.inputs = [.byte c] :: [] :: [.byte lo] :: later) :
    runSteps 3 s = .next (readOpened (hi7Of c) lo (afterByte c later s)) := by
  have ⟨_, hsel, _, hq⟩ := h
  have ⟨_, _, _, hbyte⟩ := hq
  have hcommand : step s = .next (lowByteAwaited c ([] :: [.byte lo] :: later) s) := step_formatA_wait h hA hin rfl
  have hempty : step (lowByteAwaited c ([] :: [.byte lo] :: later) s) =
      .next (lowByteAwaited c ([.byte lo] :: later) s) := step_empty hq rfl
  have hlow : step (lowByteAwaited c ([.byte lo] :: later) s) =
      .next (readAddrLow lo (afterByte lo later (lowByteAwaited c ([.byte lo] :: later) s))) :=
    step_lowByte ⟨rfl, hsel, rfl, hq⟩ rfl
  rw [runSteps_succ _ hcommand, runSteps_succ _ hempty, runSteps_succ _ hlow, runSteps_zero,
    readAddrLow_lowByteAwaited hbyte]

/-- Settles O8: both ways end in the state the whole header leaves. -/
theorem readHeaderInTwoServices : Obligations.ReadHeaderInTwoServices := by
  intro s c lo later h hA hin
  exact ⟨readOpened (hi7Of c) lo (afterByte c later s), step_formatA h hA hin, runSteps_header_apart h hA rfl⟩

/-- Settles O15: the equation of the whole header. -/
theorem readHeader : Obligations.ReadHeader := by
  rintro hi7 lo8 s _ rfl
  exact exec_read hi7 lo8 s

/-! ### Rest -/

theorem step_rest {s : State} (hq : Quiet s) (hin : s.inputs = []) : step s = .next s := by
  simp only [step, serviceNextInstant, hin]
  exact arbitrate_quiet hq _

/-- Settles O11: each step is a rest. -/
theorem restWithoutInputs : Obligations.RestWithoutInputs := by
  intro s n hq hin
  induction n with
  | zero => exact runSteps_zero s
  | succ n ih => rw [runSteps_succ n (step_rest hq hin), ih]

/-! ### The rising edge (R126) -/

/-- Settles O30: the step is the service, which is one update; BYTE_PEND was 0. -/
theorem risingEdgeFinalizes : Obligations.RisingEdgeFinalizes := by
  intro s later hp hq hin
  have ⟨_, _, _, hbyte⟩ := hq
  rw [step_rise hp hq hin, csRiseService_eq]
  simp only [hbyte]

/-! ### Sequences without a step (R121, R132, R137, 70_reset_and_hazards.md R296) -/

/-- What the presentation of an instant's first event refuses, the step refuses. -/
theorem step_refused {s : State} {e : Event} {es : Instant} {later : List Instant} {r : Refusal}
    (hin : s.inputs = (e :: es) :: later) (hp : present e { s with inputs := later } = .refused r) :
    step s = .refused r := by
  rw [step_cons hin, presentAll, hp]
  rfl

/-- What the presentation of an instant's second event refuses, the step refuses. -/
theorem step_refused_second {s u : State} {e e' : Event} {es : Instant} {later : List Instant} {r : Refusal}
    (hin : s.inputs = (e :: e' :: es) :: later) (hp : present e { s with inputs := later } = .next u)
    (hp' : present e' u = .refused r) : step s = .refused r := by
  rw [step_cons hin, presentAll, hp, andThen_next, presentAll, hp']
  rfl

/-- A byte is awaited: a command byte, a low byte or a data byte. -/
structure AwaitsByte (s : State) : Prop where
  notHalt : s.phase ≠ .halt
  notIdle : s.phase ≠ .idle
  selected : s.selected = true
  bitcnt : s.bitcnt = 0#3
  bytePend : s.bytePend = false

theorem awaitsByte_of_situation {s : State} (h : AtCommand s ∨ AtLowByte s ∨ AtData s) : AwaitsByte s := by
  obtain ⟨hp, hsel, hbit, -, -, -, hbyte⟩ | ⟨hp, hsel, hbit, -, -, -, hbyte⟩ | ⟨hp, -, hsel, hbit, -, -, -, hbyte⟩ := h
  all_goals exact ⟨by simp [hp], by simp [hp], hsel, hbit, hbyte⟩

theorem AwaitsByte.presentByte {s : State} (h : AwaitsByte s) (b : Byte) :
    presentByte b s = .next (s.exchange b s.txdata) := by
  simp [Machine.presentByte, h.notHalt, h.notIdle, h.selected, h.bitcnt, h.bytePend]

/-- After its exchange a byte waits, and a byte time that begins then is refused, whole or by its first clock period. -/
theorem AwaitsByte.second_refused {s : State} (h : AwaitsByte s) (m sl : Byte) {e : Event}
    (he : (∃ b, e = .byte b) ∨ ∃ bit, e = .sck bit) :
    present e (s.exchange m sl) = .refused .byteNotYetServiced := by
  obtain ⟨b, rfl⟩ | ⟨bit, rfl⟩ := he
  · simp [present, Machine.presentByte, h.notHalt, h.notIdle, h.selected]
  · simp [present, presentBit, h.notHalt, h.notIdle, h.selected]

theorem step_byte_then_refused {s : State} {b : Byte} {e : Event} {later : List Instant}
    (h : AtCommand s ∨ AtLowByte s ∨ AtData s) (hin : s.inputs = [.byte b, e] :: later)
    (he : (∃ b', e = .byte b') ∨ ∃ bit, e = .sck bit) : step s = .refused .byteNotYetServiced := by
  obtain ⟨hh, hi, hsel, hbit, hbyte⟩ := awaitsByte_of_situation h
  have hawaits : AwaitsByte { s with inputs := later } := ⟨hh, hi, hsel, hbit, hbyte⟩
  exact step_refused_second hin (hawaits.presentByte b) (hawaits.second_refused b _ he)

/-- Settles O35: each refusal is the presentation's, of the first or of the second event. -/
theorem illFormedSequencesRefused : Obligations.IllFormedSequencesRefused := by
  intro s later ⟨_, _, hcs, _⟩
  refine ⟨fun hp b hin => step_refused hin ?_, fun hp hin => step_refused hin ?_, fun hp hin => step_refused hin ?_,
    fun h b b' hin => step_byte_then_refused h hin (.inl ⟨b', rfl⟩),
    fun h b bit hin => step_byte_then_refused h hin (.inr ⟨bit, rfl⟩),
    fun hp hin => step_refused_second (u := { s with inputs := later, csPend := true }) hin ?_ ?_⟩
  · simp [present, presentByte, hp]
  · simp [present, presentRise, hp, hcs]
  · rcases hp with hp | hp | hp <;> simp [present, presentFall, hp, hcs]
  · simp [present, presentFall, hp, hcs]
  · simp [present, presentRise, hp]

end Sys2Proof.Machine
end

section
/-! SUPPORT. Events of the monitor beside a transfer, and the transitions of PHASE (40_framing.md R130). -/

namespace Sys2Proof.Machine

open Sys2Proof

/-! ### Events of the monitor beside a transfer (R130, 45_analog_monitor.md R232) -/

/-- `s` with all that events of the monitor may change taken from `t`. -/
def State.withMonitorOf (s t : State) : State :=
  { s with
    sa := t.sa, seqIdx := t.seqIdx, samplerRun := t.samplerRun, fault := t.fault, awdPend := t.awdPend,
    ovrPend := t.ovrPend, trace := t.trace, env := { s.env with pfCount := t.env.pfCount } }

/-- From `s` to `t` nothing changed but what the monitor changes, with `n` calls of the Fault Reactor. -/
structure MonitorFrame (n : Nat) (s t : State) : Prop where
  same : t = s.withMonitorOf t
  pfCount : t.env.pfCount = s.env.pfCount + n
  trace : t.trace = s.trace ++ List.replicate n (.call .powerFault)

theorem MonitorFrame.of_same_trace {s t : State} (hsame : t = s.withMonitorOf t)
    (hcount : t.env.pfCount = s.env.pfCount) (htrace : t.trace = s.trace) : MonitorFrame 0 s t :=
  ⟨hsame, hcount, htrace.trans (List.append_nil _).symm⟩

theorem MonitorFrame.refl (s : State) : MonitorFrame 0 s s := .of_same_trace rfl rfl rfl

theorem MonitorFrame.trans {n k : Nat} {s t u : State} (hst : MonitorFrame n s t) (htu : MonitorFrame k t u) :
    MonitorFrame (n + k) s u where
  same :=
    calc u = t.withMonitorOf u := htu.same
      _ = (s.withMonitorOf t).withMonitorOf u := congrArg (·.withMonitorOf u) hst.same
  pfCount := by rw [htu.pfCount, hst.pfCount, Nat.add_assoc]
  trace := by rw [htu.trace, hst.trace, List.append_assoc, ← List.replicate_add]

theorem MonitorFrame.csPend {n : Nat} {s t : State} (h : MonitorFrame n s t) : t.csPend = s.csPend :=
  (congrArg State.csPend h.same :)

theorem MonitorFrame.bytePend {n : Nat} {s t : State} (h : MonitorFrame n s t) : t.bytePend = s.bytePend :=
  (congrArg State.bytePend h.same :)

theorem MonitorFrame.phase {n : Nat} {s t : State} (h : MonitorFrame n s t) : t.phase = s.phase :=
  (congrArg State.phase h.same :)

theorem monitorFrame_breachService (s : State) : MonitorFrame 1 s (breachService s) := by
  rw [breachService_eq]
  exact ⟨rfl, rfl, rfl⟩

theorem monitorFrame_overrunService (s : State) : MonitorFrame 0 s (overrunService s) := by
  rw [overrunService_eq]
  exact .of_same_trace rfl rfl rfl

theorem monitorFrame_convService (v : Nat) (s : State) : MonitorFrame 0 s (convService v s) := by
  unfold convService
  split_ifs
  · exact .of_same_trace rfl rfl rfl
  · exact .refl s

/-- What is pending of the converter gets its service: one call if a breach is (R257, R258). -/
theorem monitorFrame_settleConverter (s : State) : MonitorFrame s.awdPend.toNat s (settleConverter s) := by
  unfold settleConverter
  cases ha : s.awdPend <;> cases ho : s.ovrPend
  · exact .refl s
  · exact monitorFrame_overrunService s
  · exact monitorFrame_breachService s
  · exact (monitorFrame_breachService s).trans (monitorFrame_overrunService _)

theorem monitorFrame_samplerStart (s : State) : MonitorFrame s.awdPend.toNat s (samplerStart s) := by
  have hstart : MonitorFrame 0 (settleConverter s) (samplerStart s) := .of_same_trace rfl rfl rfl
  exact (monitorFrame_settleConverter s).trans hstart

/-- What HALT ignores acts outside HALT. -/
theorem next_unlessHalted (f : State → State) {s : State} (hp : s.phase ≠ .halt) :
    (.next (unlessHalted f s) : Host.Outcome State Fault Refusal) = .next (f s) := by
  rw [unlessHalted, if_neg hp]

/-- The presentation of a monitor event outside HALT: a SAMPLER_START calls the Reactor for a latched breach. -/
theorem present_monitorFrame {e : Event} {s : State} (he : e.ofMonitor = true) (hp : s.phase ≠ .halt) :
    ∃ t n, present e s = .next t ∧ MonitorFrame n s t ∧ n ≤ [e].count .samplerStart := by
  cases e with
  | conv v => exact ⟨_, 0, next_unlessHalted _ hp, monitorFrame_convService v s, Nat.zero_le _⟩
  | overrun => exact ⟨_, 0, next_unlessHalted _ hp, .of_same_trace rfl rfl rfl, Nat.zero_le _⟩
  | cfgThreshold v => exact ⟨_, 0, next_unlessHalted _ hp, .of_same_trace rfl rfl rfl, Nat.zero_le _⟩
  | samplerStart => exact ⟨_, _, next_unlessHalted _ hp, monitorFrame_samplerStart s, Bool.toNat_le _⟩
  | csFall | csRise | byte _ | sck _ | resetIn | env _ => exact absurd he nofun

theorem presentAll_monitorFrame {es : Instant} {s : State} (hes : ∀ e ∈ es, e.ofMonitor = true) (hp : s.phase ≠ .halt) :
    ∃ t n, presentAll es s = .next t ∧ MonitorFrame n s t ∧ n ≤ es.count .samplerStart := by
  induction es generalizing s with
  | nil => exact ⟨s, 0, rfl, .refl s, Nat.zero_le _⟩
  | cons e es ih =>
    obtain ⟨t, n, ht, hframe, hn⟩ := present_monitorFrame (hes e (by simp)) hp
    obtain ⟨u, k, hu, hframe', hk⟩ := ih (fun e he => hes e (by simp [he])) (hframe.phase.trans_ne hp)
    refine ⟨u, n + k, ?_, hframe.trans hframe', ?_⟩
    · rw [presentAll, ht, andThen_next, hu]
    · rw [← List.singleton_append, List.count_append]
      exact Nat.add_le_add hn hk

/-- The breach service clears its own latch and no other. -/
theorem breachService_latches (s : State) : (breachService s).awdPend = false ∧ (breachService s).ovrPend = s.ovrPend ∧
    (breachService s).csPend = s.csPend ∧ (breachService s).bytePend = s.bytePend ∧
    (breachService s).phase = s.phase := by
  rw [breachService_eq]
  exact ⟨rfl, rfl, rfl, rfl, rfl⟩

/-- A pending overrun with nothing else pending is the last service. -/
theorem arbitrate_overrun_last {s : State} (n : Nat) (hp : s.phase ≠ .halt) (ha : s.awdPend = false)
    (ho : s.ovrPend = true) (hc : s.csPend = false) (hb : s.bytePend = false) :
    arbitrate (n + 1) s = .next (overrunService s) ∧ Quiet (overrunService s) := by
  have hq : Quiet (overrunService s) := by
    rw [overrunService_eq]
    exact ⟨ha, rfl, hc, hb⟩
  exact ⟨(arbitrate_overrun n hp ha ho).trans (arbitrate_quiet hq n), hq⟩

/-- With no edge and no byte pending the arbiter settles the converter. -/
theorem arbitrate_settleConverter {s : State} (hp : s.phase ≠ .halt) (hc : s.csPend = false) (hb : s.bytePend = false) :
    arbitrate serviceRounds s = .next (settleConverter s) ∧ Quiet (settleConverter s) := by
  unfold settleConverter
  cases ha : s.awdPend with
  | false =>
    cases ho : s.ovrPend with
    | false => exact ⟨arbitrate_quiet ⟨ha, ho, hc, hb⟩ _, ha, ho, hc, hb⟩
    | true => exact arbitrate_overrun_last 3 hp ha ho hc hb
  | true =>
    have hround : arbitrate serviceRounds s = arbitrate 3 (breachService s) := arbitrate_breach 3 hp ha
    obtain ⟨ha', ho', hc', hb', hp'⟩ := breachService_latches s
    rw [hround]
    cases ho : s.ovrPend with
    | false =>
      have hq : Quiet (breachService s) := ⟨ha', ho'.trans ho, hc'.trans hc, hb'.trans hb⟩
      exact ⟨arbitrate_quiet hq 3, hq⟩
    | true => exact arbitrate_overrun_last 2 (hp'.trans_ne hp) ha' (ho'.trans ho) (hc'.trans hc) (hb'.trans hb)

/-- In HALT an event of the monitor is ignored (R133). -/
theorem presentAll_monitor_halt {es : Instant} {s : State} (hes : ∀ e ∈ es, e.ofMonitor = true) (hp : s.phase = .halt) :
    presentAll es s = .next s := by
  induction es with
  | nil => rfl
  | cons e es ih =>
    have he : present e s = .next s := by
      have hmon := hes e (by simp)
      cases e with
      | conv _ | overrun | cfgThreshold _ | samplerStart => exact congrArg _ (if_pos hp)
      | csFall | csRise | byte _ | sck _ | resetIn | env _ => exact absurd hmon nofun
    rw [presentAll, he, andThen_next, ih fun e' he' => hes e' (by simp [he'])]

/-- A step of monitor events in a quiet state. -/
theorem step_monitor {s : State} {now : Instant} {later : List Instant} (hq : Quiet s) (hin : s.inputs = now :: later)
    (hnow : ∀ e ∈ now, e.ofMonitor = true) :
    ∃ t n, step s = .next t ∧ MonitorFrame n { s with inputs := later } t ∧ Quiet t ∧
      n ≤ now.count .samplerStart + 1 := by
  have ⟨_, _, hc, hb⟩ := hq
  rw [step_cons hin]
  by_cases hp : s.phase = .halt
  · rw [presentAll_monitor_halt hnow (s := { s with inputs := later }) hp]
    exact ⟨_, 0, arbitrate_quiet (s := { s with inputs := later }) hq _, .refl _, hq, Nat.zero_le _⟩
  · obtain ⟨u, n, hu, hframe, hn⟩ := presentAll_monitorFrame hnow (s := { s with inputs := later }) hp
    obtain ⟨hround, hsettled⟩ :=
      arbitrate_settleConverter (hframe.phase.trans_ne hp) (hframe.csPend.trans hc) (hframe.bytePend.trans hb)
    rw [hu]
    exact ⟨_, _, hround, hframe.trans (monitorFrame_settleConverter u), hsettled,
      Nat.add_le_add hn (Bool.toNat_le _)⟩

/-- Settles O48: the frame of a step of monitor events, both latches of the converter 0 at its ends. -/
theorem monitorLeavesTransferAlone : Obligations.MonitorLeavesTransferAlone := by
  intro s now later hq hin hnow
  obtain ⟨t, n, ht, hframe, hqt, hn⟩ := step_monitor hq hin hnow
  have ⟨ha, ho, _, _⟩ := hq
  have ⟨ha', ho', _, _⟩ := hqt
  refine ⟨t, ht, hframe.same.trans ?_, n, hn, hframe.pfCount, hframe.trace⟩
  simp only [State.withMonitorOf, ha, ho, ha', ho']

/-! ### The transitions of PHASE (R130) -/

/-- 0x4F is the one command byte of RESET (30_encoding.md R99). -/
theorem decodeFormatN_eq_reset_iff {c : Byte} (hN : isFormatA c = false) : decodeFormatN c = .reset ↔ c = 0x4F#8 := by
  constructor
  · intro h
    have henc := encode_decodeFormatN hN
    rw [h] at henc
    exact (List.cons.inj henc).1.symm
  · rintro rfl
    rfl

/-- A command ends its header in STREAM, RESET in HALT (R125, 44_reset_test_unsupported.md R200). -/
theorem exec_phase {i : Instr} {s t : State} (h : HeaderOpen s) (ht : exec i s = .next t) :
    t.phase = if i = .reset then .halt else .stream := by
  split_ifs with hi
  · subst hi
    cases ht
    rfl
  · exact (exec_opens h hi ht).phase

/-- The phase a command byte leads to. -/
theorem step_command_phase {s t : State} {c : Byte} {later : List Instant} (hinv : MachineInvariant s) (h : AtCommand s)
    (hin : s.inputs = [.byte c] :: later) (ht : step s = .next t) :
    t.phase = (if c.getLsbD 7 then (if (waitingByte later).isSome then .stream else .addrLo)
        else if c = 0x4F#8 then .halt else .stream) := by
  have ⟨hp, _, _, _⟩ := h
  obtain ⟨hsel, hcur, hsend, hrecv⟩ := hinv.headerOpen (.inl hp)
  have hopen : ∀ l, HeaderOpen (afterByte c l s) := fun _ => ⟨hsel, hcur, hsend, hrecv⟩
  cases hA : c.getLsbD 7 with
  | true =>
    cases hw : waitingByte later with
    | none =>
      cases (step_formatA_wait h hA hin hw).symm.trans ht
      rfl
    | some p =>
      obtain ⟨lo, later'⟩ := p
      rw [step_command h hin, commandService_read (s := afterByte c later s) hA rfl hw] at ht
      exact exec_phase (hopen later') ht
  | false =>
    have hphase := exec_phase (hopen later) ((step_formatN h hA hin).symm.trans ht)
    simpa [decodeFormatN_eq_reset_iff hA] using hphase

/-- A byte that is taken outside HALT came between byte times of an open transfer. -/
theorem bitcnt_of_step_byte {s t : State} {c : Byte} {later : List Instant} (hp : s.phase ≠ .halt)
    (hin : s.inputs = [.byte c] :: later) (ht : step s = .next t) : s.bitcnt = 0#3 ∧ s.selected = true := by
  rw [step_cons hin, presentAll_single] at ht
  obtain ⟨u, hu, -⟩ := andThen_eq_next ht
  rcases presentByte_cases hu with ⟨hh, -⟩ | ⟨-, -, hsel, hbit, -⟩
  · exact absurd hh hp
  · exact ⟨hbit, hsel⟩

/-- In HALT every event but RESET_IN leaves PHASE (R133). -/
theorem present_halt_phase {e : Event} {s t : State} (hp : s.phase = .halt) (he : e ≠ .resetIn)
    (ht : present e s = .next t) : t.phase = .halt := by
  cases e with
  | csFall => rcases presentFall_cases ht with ⟨-, rfl⟩ | ⟨-, -, rfl⟩ <;> exact hp
  | csRise => rcases presentRise_cases ht with ⟨-, rfl⟩ | ⟨-, -, -, rfl⟩ <;> exact hp
  | byte m => rcases presentByte_cases ht with ⟨-, rfl⟩ | ⟨-, -, -, -, -, rfl⟩ <;> exact hp
  | sck b => rcases presentBit_cases ht with ⟨-, rfl⟩ | ⟨-, -, -, rfl⟩ | ⟨-, -, -, rfl⟩ <;> exact hp
  | resetIn => exact absurd rfl he
  | env m => cases ht; cases m <;> exact hp
  | conv v | overrun | cfgThreshold v | samplerStart =>
    cases ht
    rw [unlessHalted, if_pos hp]
    exact hp

/-- Settles O50: one clause per event; a byte that is taken stands in one of the three waits. -/
theorem phaseTransitions : Obligations.PhaseTransitions := by
  intro s t e later hinv hin ht
  have hq := hinv.quiet
  refine ⟨?fall, ?command, ?byte, ?rise, ?reset, ?halt, ?rest⟩
  case fall =>
    rintro rfl hp
    cases (step_fall hp hq hin).symm.trans ht
    rfl
  case command =>
    rintro c rfl hp
    obtain ⟨hbit, hsel⟩ := bitcnt_of_step_byte (by simp [hp]) hin ht
    exact step_command_phase hinv ⟨hp, hsel, hbit, hq⟩ hin ht
  case byte =>
    rintro c rfl hp
    have hh : s.phase ≠ .halt := by rcases hp with hp | hp <;> simp [hp]
    obtain ⟨hbit, hsel⟩ := bitcnt_of_step_byte hh hin ht
    rcases hp with hp | hp
    · cases (step_lowByte ⟨hp, hsel, hbit, hq⟩ hin).symm.trans ht
      rfl
    · have hdata : AtData s := ⟨hp, hinv.byteIeIffStream.2 hp, hsel, hbit, hq⟩
      cases (step_data hdata hin (byteClockService_quiet (afterByte_quiet hq c later) c)).symm.trans ht
      exact (byteClockService_phase c _).trans hp
  case rise =>
    rintro rfl hp
    cases (step_rise hp hq hin).symm.trans ht
    exact csRiseService_phase _
  case reset =>
    rintro rfl
    cases (step_of_quiet hin rfl (show Quiet (resetInService _) from ⟨rfl, rfl, rfl, rfl⟩)).symm.trans ht
    rfl
  case halt =>
    intro hp he
    rw [step_cons hin, presentAll_single] at ht
    obtain ⟨u, hu, hu'⟩ := andThen_eq_next ht
    have hup : u.phase = .halt := present_halt_phase (s := { s with inputs := later }) hp he hu
    cases (arbitrate_halt hup _).symm.trans hu'
    exact hup
  case rest =>
    rintro (hmon | henv)
    · obtain ⟨t', n, ht', hframe, -⟩ := step_monitor hq hin (by simpa using hmon)
      cases ht'.symm.trans ht
      exact hframe.phase
    · cases e with
      | env m =>
        have hqm : Quiet (envMove m { s with inputs := later }) := by cases m <;> exact hq
        cases (step_of_quiet hin rfl hqm).symm.trans ht
        cases m <;> rfl
      | _ => exact absurd henv nofun

end Sys2Proof.Machine
end

section
/-! SUPPORT. The data phases that issue no call, and the transfers made of them: TEST, SEND without a slot, RECV without
a message. -/

namespace Sys2Proof.Machine

open Sys2Proof

/-! ### A data phase without calls (40_framing.md R129) -/

/-- A data phase whose byte-clock services issue no call: the `j`-th puts `v j` in TXDATA and leaves the cursor at
`cur (j + 1)`. -/
structure CallFree (v : Nat → Byte) (cur : Nat → Cursor) (s : State) : Prop where
  atData : AtData s
  cursor : s.cursor = cur 0
  service : ∀ j b u, u.op = s.op → u.cfg = s.cfg → u.cursor = cur j →
    byteClockService b u = { u with txdata := v j, cursor := cur (j + 1) }

/-- What one data byte `m` leaves of such a data phase. -/
def placed (v : Byte) (c : Cursor) (m : Byte) (later : List Instant) (s : State) : State :=
  { afterByte m later s with txdata := v, cursor := c }

theorem placed_frame (v : Byte) (c : Cursor) (m : Byte) (later : List Instant) (s : State) :
    FetchFrame s (placed v c m later s) := rfl

section
variable {v : Nat → Byte} {cur : Nat → Cursor} {s : State}

theorem step_callFree (h : CallFree v cur s) {m : Byte} {later : List Instant} (hin : s.inputs = [.byte m] :: later) :
    step s = .next (placed (v 0) (cur 1) m later s) := by
  have ⟨_, _, _, _, hq⟩ := h.atData
  rw [step_data h.atData hin (byteClockService_quiet (afterByte_quiet hq m later) m),
    h.service 0 m (afterByte m later s) rfl rfl h.cursor]
  rfl

/-- A data byte leaves the data phase open, one place on. -/
theorem placed_callFree (h : CallFree v cur s) (m : Byte) (later : List Instant) :
    CallFree (fun j => v (j + 1)) (fun j => cur (j + 1)) (placed (v 0) (cur 1) m later s) := by
  obtain ⟨⟨hp, hie, hsel, -, hq⟩, -, hservice⟩ := h
  exact ⟨⟨hp, hie, hsel, rfl, hq⟩, rfl, fun j => hservice (j + 1)⟩

end

/-- What data bytes `ms` leave in the trace when no service issues a call: byte `f j` goes out in exchange `j`. -/
def exchanges (f : Nat → Byte) (ms : List Byte) : List Obs := ms.mapIdx (fun j m => .exchange m (f j))

theorem exchanges_prepend (first : Byte) (f : Nat → Byte) (m : Byte) (ms : List Byte) :
    exchanges (prepend first f) (m :: ms) = .exchange m first :: exchanges f ms :=
  List.mapIdx_cons

theorem exchanges_const (b : Byte) (ms : List Byte) : exchanges (fun _ => b) ms = ms.map (fun m => .exchange m b) := by
  induction ms with
  | nil => rfl
  | cons m ms ih => exact List.mapIdx_cons.trans (congrArg (_ :: ·) ih)

theorem prepend_const (b : Byte) : prepend b (fun _ => b) = fun _ => b := by
  funext j
  cases j <;> rfl

theorem prepend_eq_ite (first : Byte) (f : Nat → Byte) :
    prepend first f = fun j => if j = 0 then first else f (j - 1) := by
  funext j
  cases j <;> rfl

/-- Every data byte takes one step; its slave byte is the one placed before it. -/
theorem runSteps_callFree (ms : List Byte) {v : Nat → Byte} {cur : Nat → Cursor} {s : State} {rest : List Instant}
    (h : CallFree v cur s) (hin : s.inputs = byteEvents ms ++ rest) :
    ∃ t, (∀ n, runSteps (ms.length + n) s = runSteps n t) ∧
      t.trace = s.trace ++ exchanges (prepend s.txdata v) ms ∧
      t.cursor = cur ms.length ∧ t.env = s.env ∧ t.inputs = rest ∧ FetchFrame s t := by
  induction ms generalizing v cur s with
  | nil => exact ⟨s, fun n => by simp, by simp [exchanges], h.cursor, rfl, hin, .refl s⟩
  | cons m ms ih =>
    have hstep : step s = .next (placed (v 0) (cur 1) m (byteEvents ms ++ rest) s) := step_callFree h hin
    obtain ⟨t, hrun, htrace, hcur, henv, hrest, hframe⟩ := ih (placed_callFree h m (byteEvents ms ++ rest)) rfl
    have hbytes : prepend (v 0) (fun j => v (j + 1)) = v := by
      funext j
      cases j <;> rfl
    refine ⟨t, fun n => ?_, ?_, hcur, henv, hrest, (placed_frame _ _ m _ s).trans hframe⟩
    · rw [List.length_cons, Nat.succ_add, runSteps_succ _ hstep, hrun]
    · have htrace' : t.trace = s.trace ++ [.exchange m s.txdata] ++ exchanges (prepend (v 0) (fun j => v (j + 1))) ms :=
        htrace
      rw [htrace', hbytes, exchanges_prepend, List.append_assoc, List.singleton_append]

/-- No commit, no pop: the environment stays (R126). -/
theorem csRiseService_env {s : State} (hsend : s.sendPending = false) (hrecv : s.recvPending = false) :
    (csRiseService s).env = s.env := by
  simp [csRiseService_eq, hsend, hrecv]

/-- `CS_RISE` clears both pending flags and leaves the cursor (R126). -/
theorem csRiseService_flags (s : State) : (csRiseService s).sendPending = false ∧
    (csRiseService s).recvPending = false ∧ (csRiseService s).cursor = s.cursor := by
  rw [csRiseService_eq]
  exact ⟨rfl, rfl, rfl⟩

/-- Such a data phase and its end, with nothing to commit. -/
theorem runSteps_callFree_rise (ms : List Byte) {v : Nat → Byte} {cur : Nat → Cursor} {s : State} {later : List Instant}
    (h : CallFree v cur s) (hsend : s.sendPending = false) (hrecv : s.recvPending = false)
    (hin : s.inputs = byteEvents ms ++ [.csRise] :: later) :
    ∃ t, runSteps (ms.length + 1) s = .next t ∧
      t.trace = s.trace ++ exchanges (prepend s.txdata v) ms ∧
      t.cursor = cur ms.length ∧ t.env = s.env ∧ t.phase = .idle ∧ t.sendPending = false ∧ t.recvPending = false := by
  have ⟨hp, _, _, _, hq⟩ := h.atData
  obtain ⟨u, hrun, htrace, hcur, henv, hrest, hframe⟩ := runSteps_callFree ms h hin
  have hrise : step u = .next (csRiseService { u with inputs := later }) :=
    step_rise (.inr (.inr (hframe.phase.trans hp))) (hframe.quiet hq) hrest
  have hsend' : ({ u with inputs := later } : State).sendPending = false := hframe.sendPending.trans hsend
  have hrecv' : ({ u with inputs := later } : State).recvPending = false := hframe.recvPending.trans hrecv
  obtain ⟨hsendOff, hrecvOff, hcursor⟩ := csRiseService_flags { u with inputs := later }
  refine ⟨csRiseService { u with inputs := later }, ?_, (csRiseService_trace hsend' hrecv').trans htrace,
    hcursor.trans hcur, (csRiseService_env hsend' hrecv').trans henv, csRiseService_phase _, hsendOff, hrecvOff⟩
  rw [hrun, runSteps_succ _ hrise, runSteps_zero]

/-! ### Operations without a data phase (R129) -/

/-- ENABLE, DISABLE, UNSUP and NONE place the zero byte. -/
theorem callFree_zero {s : State} (h : AtData s)
    (hop : s.op = .enable ∨ s.op = .disable ∨ s.op = .unsup ∨ s.op = .none) :
    CallFree (fun _ => Config.unsupByte) (fun _ => s.cursor) s := by
  refine ⟨h, rfl, fun _ b u ho _ hc => ?_⟩
  rw [← ho] at hop
  rw [← hc]
  rcases hop with ho | ho | ho | ho <;> simp [byteClockService, ho, streamZero, State.place]

/-- Settles O28: the step of a data byte of such an operation. -/
theorem dataByteWithoutDataPhase : Obligations.DataByteWithoutDataPhase := by
  intro s b later h hop hin
  exact step_callFree (callFree_zero h hop) hin

/-! ### SEND without a slot, RECV without a message (42_queue_send_recv.md R168, R173) -/

theorem byteClockService_send {s : State} (h : s.op = .send) (b : Byte) : byteClockService b s = streamSend b s := by
  simp [byteClockService, h]

/-- Without a slot a SEND acknowledges every byte and drops it (R166, R168). -/
theorem callFree_send {s : State} (h : AtData s) (hop : s.op = .send) (hv : s.cursor.valid = false) :
    CallFree (fun _ => s.cfg.ackByte) (fun _ => s.cursor) s := by
  refine ⟨h, rfl, fun _ b u ho hcfg hc => ?_⟩
  rw [← hc] at hv
  rw [← hc, ← hcfg, byteClockService_send (ho.trans hop), streamSend, curWrite_invalid b hv]
  exact curInc_invalid hv

/-- Without a message a RECV places the byte of an invalid cursor (R171, R173). -/
theorem callFree_recv {s : State} (h : AtData s) (hop : s.op = .recv) (hv : s.cursor.valid = false) :
    CallFree (fun _ => Config.invalidReadByte) (fun _ => s.cursor) s := by
  refine ⟨h, rfl, fun _ b u ho hcfg hc => ?_⟩
  rw [← hc] at hv
  rw [← hc, byteClockService_fetch (.inr (ho.trans hop)), streamFetch, curRead_invalid hv]
  exact curInc_invalid hv

/-- The command bytes 0x00 to 0x0F are SEND (30_encoding.md R97). -/
theorem decodeFormatN_send {c : Byte} (h : c.toNat ≤ 0x0F) : decodeFormatN c = .send (arg4Of c) := by
  have hopc : opcOf c = 0#4 := opcOf_eq_of_range (Nat.zero_le _) (Nat.lt_succ_of_le h)
  simp [decodeFormatN, hopc]

/-- The step of a SEND command byte. -/
theorem step_send {s : State} {c : Byte} {later : List Instant} (h : AtCommand s) (hc : c.toNat ≤ 0x0F)
    (hin : s.inputs = [.byte c] :: later) : step s = exec (.send (arg4Of c)) (afterByte c later s) := by
  rw [step_formatN h (isFormatA_of_lt (by omega)) hin, decodeFormatN_send hc]

/-- Settles O55: the command step, then a call-free data phase that acknowledges. -/
theorem sendTransferWithoutSlot : Obligations.SendTransferWithoutSlot := by
  intro s c ds later hinv hcmd hc hg hin
  have ⟨hp, hsel, _, hq⟩ := hcmd
  have hopen := hinv.headerOpen (.inl hp)
  have hstep : step s = .next (sendUngranted (afterByte c (byteEvents ds ++ [.csRise] :: later) s)) :=
    (step_send hcmd hc hin).trans (exec_send_ungranted (s := afterByte c _ s) _ hg)
  have hdata : AtData (sendUngranted (afterByte c (byteEvents ds ++ [.csRise] :: later) s)) := ⟨rfl, rfl, hsel, rfl, hq⟩
  obtain ⟨t, hrun, htrace, hcur, henv, hidle, hsend, -⟩ :=
    runSteps_callFree_rise ds (callFree_send hdata rfl rfl) hopen.sendPending hopen.recvPending rfl
  refine ⟨t, (runSteps_succ _ hstep).trans hrun, ?_, henv, hidle, hsend, congrArg Cursor.valid hcur⟩
  have hbytes : exchanges (prepend s.cfg.ackByte fun _ => s.cfg.ackByte) ds =
      ds.map (fun d => .exchange d s.cfg.ackByte) := by
    rw [prepend_const, exchanges_const]
  rw [← hbytes]
  refine htrace.trans (congrArg (· ++ _) ?_)
  exact List.append_assoc _ _ _

/-- Settles O57: the command step, then a call-free data phase that places the zero byte. -/
theorem recvTransferWithoutMessage : Obligations.RecvTransferWithoutMessage := by
  intro s c ms later hinv hcmd hlow hhigh hg hin
  have ⟨hp, hsel, _, hq⟩ := hcmd
  have hopen := hinv.headerOpen (.inl hp)
  have hstep : step s = .next (recvUngranted (afterByte c (byteEvents ms ++ [.csRise] :: later) s)) := by
    rw [step_formatN hcmd (isFormatA_of_lt (by omega)) hin, decodeFormatN_recv hlow hhigh]
    exact exec_recv_ungranted _ hg
  have hdata : AtData (recvUngranted (afterByte c (byteEvents ms ++ [.csRise] :: later) s)) := ⟨rfl, rfl, hsel, rfl, hq⟩
  obtain ⟨t, hrun, htrace, -, henv, hidle, -, hrecv⟩ :=
    runSteps_callFree_rise ms (callFree_recv hdata rfl rfl) hopen.sendPending hopen.recvPending rfl
  refine ⟨t, (runSteps_succ _ hstep).trans hrun, ?_, henv, hidle, hrecv⟩
  have htrace' : t.trace = s.trace ++ [.exchange c s.txdata] ++ [.call (.recvFront none)] ++
      exchanges (prepend s.txdata fun _ => 0x00#8) ms := htrace
  rw [htrace', prepend_eq_ite, List.append_assoc s.trace]
  rfl

/-! ### TEST (44_reset_test_unsupported.md R201, R202, R206) -/

theorem nextAddr_addrPlus (a : Addr) (n : Nat) : nextAddr (addrPlus a n) = addrPlus a (n + 1) := by
  simp [nextAddr, addrPlus, BitVec.add_assoc, BitVec.ofNat_add]

/-- The low byte of an address `n` places on. -/
theorem trunc8_addrPlus (a : Addr) (n : Nat) : trunc8 (addrPlus a n) = BitVec.ofNat 8 ((a.toNat + n) % 256) := by
  apply BitVec.eq_of_toNat_eq
  simp only [trunc8, addrPlus, BitVec.extractLsb'_toNat, BitVec.toNat_add, BitVec.toNat_ofNat, Nat.shiftRight_zero]
  omega

theorem byteClockService_test {s : State} (h : s.op = .test) (b : Byte) : byteClockService b s = streamTest s := by
  simp [byteClockService, h]

/-- TEST echoes the low byte of the cursor and advances it (R202). -/
theorem callFree_test {s : State} {a : Addr} (h : AtData s) (hop : s.op = .test)
    (hc : s.cursor = { valid := true, addr := a }) :
    CallFree (fun j => trunc8 (addrPlus a j)) (fun j => { valid := true, addr := addrPlus a j }) s := by
  refine ⟨h, by rw [hc, addrPlus_zero], fun j b u ho _ hcur => ?_⟩
  have hvalid : (u.place (trunc8 u.cursor.addr)).cursor.valid = true := by rw [place_cursor, hcur]
  rw [byteClockService_test (ho.trans hop), streamTest, curInc_valid hvalid, place_cursor, hcur, nextAddr_addrPlus]
  rfl

/-- The command bytes 0x40 to 0x4E are TEST (30_encoding.md R97, R105). -/
theorem exec_test {c : Byte} (hlow : 0x40 ≤ c.toNat) (hhigh : c.toNat ≤ 0x4E) (s : State) :
    exec (decodeFormatN c) s = .next (testCommand s) := by
  have hopc : opcOf c = 4#4 := opcOf_eq_of_range hlow (Nat.lt_succ_of_le (hhigh.trans (by decide)))
  have harg : arg4Of c ≠ 15#4 := by
    intro h
    have hnum : c.toNat % 16 = 15 := (arg4Of_toNat c).symm.trans (congrArg BitVec.toNat h)
    omega
  rw [← formatN_fields c, hopc, decodeFormatN_opc4]
  rcases opc4_cases (arg4Of c) with h | h | h7 | ⟨h8, h11⟩ | ⟨h12, h13⟩
  · exact absurd h harg
  · rw [h]; rfl
  · rw [decodeOpc4_test0to7 h7]; rfl
  · rw [decodeOpc4_test8to11 h8 h11]; rfl
  · rw [decodeOpc4_test12to13 h12 h13]; rfl

/-- Settles O58: the command step, then a call-free data phase that echoes the cursor from DIAG_ADDR on. -/
theorem testTransfer : Obligations.TestTransfer := by
  intro s c ms later hcmd hlow hhigh hin
  have ⟨_, hsel, _, hq⟩ := hcmd
  have hstep : step s = .next (testCommand (afterByte c (byteEvents ms ++ later) s)) :=
    (step_formatN hcmd (isFormatA_of_lt (by omega)) hin).trans (exec_test hlow hhigh _)
  have hdata : AtData (testCommand (afterByte c (byteEvents ms ++ later) s)) := ⟨rfl, rfl, hsel, rfl, hq⟩
  obtain ⟨t, hrun, htrace, -, henv, -⟩ := runSteps_callFree ms (callFree_test hdata rfl rfl) rfl
  refine ⟨t, (runSteps_succ _ hstep).trans (hrun 0), ?_, henv⟩
  have htrace' : t.trace = s.trace ++ [.exchange c s.txdata] ++
      exchanges (prepend s.cfg.ackByte fun j => trunc8 (addrPlus s.cfg.diagAddr j)) ms := htrace
  simp only [htrace', prepend_eq_ite, trunc8_addrPlus, List.append_assoc, List.singleton_append, exchanges]

end Sys2Proof.Machine
end

section
/-! SUPPORT. The data phase of a SEND with a slot, and the whole transfer (42_queue_send_recv.md R166, R167). -/

namespace Sys2Proof.Machine

open Sys2Proof

/-! ### One data byte of a SEND (R166) -/

/-- A SEND's data phase, its next write at `a`. -/
structure Sending (a : Addr) (s : State) : Prop where
  atData : AtData s
  op : s.op = .send
  cursor : s.cursor = { valid := true, addr := a }
  txdata : s.txdata = s.cfg.ackByte

/-- What a write of `v` at `a` leaves in the trace: a `register_write`, or nothing in an overlay (20_memory.md R79). -/
def writeCall (s : State) (a : Addr) (v : Byte) : List Obs :=
  if inOverlay s a then [] else [.call (.registerWrite a v)]

/-- The call of a write depends on the parameters alone. -/
theorem writeCall_congr {s t : State} (h : t.cfg = s.cfg) (a : Addr) (v : Byte) :
    writeCall t a v = writeCall s a v := by
  simp only [writeCall, inOverlay_congr h]

/-- What one data byte `m` leaves: written at `a`, acknowledged, the cursor one place on. -/
def sent (a : Addr) (m : Byte) (later : List Instant) (s : State) : State :=
  ((memWrite a m (afterByte m later s)).place s.cfg.ackByte).aim (nextAddr a)

/-- Write, acknowledge, advance through a valid cursor. -/
theorem streamSend_valid {s : State} {a : Addr} (h : s.cursor = { valid := true, addr := a }) (b : Byte) :
    streamSend b s = ((memWrite a b s).place s.cfg.ackByte).aim (nextAddr a) := by
  have hv : s.cursor.valid = true := by rw [h]
  have ha : s.cursor.addr = a := by rw [h]
  rw [streamSend, curWrite_valid b hv, ha, curInc_valid (by simpa using hv), place_cursor, memWrite_cursor, ha]

theorem step_sending {s : State} {a : Addr} {m : Byte} {later : List Instant} (h : Sending a s)
    (hin : s.inputs = [.byte m] :: later) : step s = .next (sent a m later s) := by
  obtain ⟨hdata, hop, hcur, -⟩ := h
  have ⟨_, _, _, _, hq⟩ := hdata
  rw [step_data hdata hin (byteClockService_quiet (afterByte_quiet hq m later) m),
    byteClockService_send (s := afterByte m later s) hop, streamSend_valid (s := afterByte m later s) hcur]
  rfl

theorem sent_sending {s : State} {a : Addr} (h : Sending a s) (m : Byte) (later : List Instant) :
    Sending (nextAddr a) (sent a m later s) := by
  obtain ⟨⟨hp, hie, hsel, -, hq⟩, hop, -, -⟩ := h
  exact ⟨⟨hp, hie, hsel, rfl, hq⟩, hop, rfl, rfl⟩

theorem sent_trace {s : State} {a : Addr} (h : Sending a s) (m : Byte) (later : List Instant) :
    (sent a m later s).trace = s.trace ++ .exchange m s.cfg.ackByte :: writeCall s a m := by
  have htrace : (sent a m later s).trace = s.trace ++ [.exchange m s.txdata] ++ writeCall s a m := rfl
  rw [htrace, h.txdata, List.append_assoc, List.singleton_append]

theorem cell_sent (a b : Addr) (m : Byte) (later : List Instant) (s : State) :
    cell (sent a m later s) b = if inOverlay s a = false ∧ b = a then some m else cell s b :=
  cell_memWrite a b m (afterByte m later s)

/-! ### What a SEND's data phase leaves alone -/

/-- `s` with all that a SEND's data phase may change taken from `t`. -/
def State.withSendsOf (s t : State) : State :=
  { s with
    cursor := t.cursor, rxdata := t.rxdata, txdata := t.txdata, shift := t.shift, bitcnt := t.bitcnt,
    misoBits := t.misoBits, inputs := t.inputs, trace := t.trace, env := { s.env with mem := t.env.mem } }

/-- From `s` to `t` nothing changed but what a SEND's data bytes change. -/
def SendFrame (s t : State) : Prop := t = s.withSendsOf t

theorem SendFrame.refl (s : State) : SendFrame s s := rfl

theorem SendFrame.trans {s t u : State} (hst : SendFrame s t) (htu : SendFrame t u) : SendFrame s u :=
  calc u = t.withSendsOf u := htu
    _ = (s.withSendsOf t).withSendsOf u := congrArg (·.withSendsOf u) hst

section
variable {s t : State} (h : SendFrame s t)
include h

theorem SendFrame.eq : t = s.withSendsOf t := h
theorem SendFrame.phase : t.phase = s.phase := (congrArg State.phase h.eq :)
theorem SendFrame.sendPending : t.sendPending = s.sendPending := (congrArg State.sendPending h.eq :)
theorem SendFrame.recvPending : t.recvPending = s.recvPending := (congrArg State.recvPending h.eq :)
theorem SendFrame.sendCommits : t.env.sendCommits = s.env.sendCommits := (congrArg (·.env.sendCommits) h.eq :)

theorem SendFrame.quiet (hq : Quiet s) : Quiet t := by
  rw [h.eq]
  exact hq

end

theorem sent_frame (a : Addr) (m : Byte) (later : List Instant) (s : State) : SendFrame s (sent a m later s) := rfl

/-! ### The whole data phase -/

/-- What data bytes `ds` written from `a` on leave in the trace: each is acknowledged, then written. -/
def sendTrace (s : State) (a : Addr) (ds : List Byte) : List Obs :=
  (ds.mapIdx (fun j d => .exchange d s.cfg.ackByte :: writeCall s (addrPlus a j) d)).flatten

theorem sendTrace_cons (s : State) (a : Addr) (d : Byte) (ds : List Byte) :
    sendTrace s a (d :: ds) = .exchange d s.cfg.ackByte :: writeCall s a d ++ sendTrace s (nextAddr a) ds := by
  simp [sendTrace, addrPlus_next]

theorem sendTrace_congr {s t : State} (h : t.cfg = s.cfg) (a : Addr) (ds : List Byte) :
    sendTrace t a ds = sendTrace s a ds := by
  simp only [sendTrace, writeCall_congr h, h]

/-- Within the address space no later place is the first one again. -/
theorem ne_addrPlus (a : Addr) {n : Nat} (hpos : 0 < n) (hn : n < 2 ^ 15) : a ≠ addrPlus a n := by
  intro h
  have hnum := congrArg BitVec.toNat h
  have ha := a.isLt
  simp only [addrPlus, BitVec.toNat_add, BitVec.toNat_ofNat] at hnum
  omega

/-- The cells that `ds` written from `a` on leave: `s` before, `t` after. -/
structure CellsWritten (s : State) (a : Addr) (ds : List Byte) (t : State) : Prop where
  written : ∀ j d, ds[j]? = some d → ds.length ≤ 2 ^ 15 → inOverlay s (addrPlus a j) = false →
    cell t (addrPlus a j) = some d
  kept : ∀ b, (∀ j, j < ds.length → b ≠ addrPlus a j) → cell t b = cell s b

/-- The first byte is written before the others, none of which comes to its place. -/
theorem CellsWritten.cons {s t : State} {a : Addr} {d : Byte} {ds : List Byte} {later : List Instant}
    (h : CellsWritten (sent a d later s) (nextAddr a) ds t) : CellsWritten s a (d :: ds) t where
  written j d' hd hlen ho := by
    rw [List.length_cons] at hlen
    cases j with
    | zero =>
      obtain rfl : d = d' := Option.some.inj hd
      rw [addrPlus_zero] at ho ⊢
      have hother : ∀ j, j < ds.length → a ≠ addrPlus (nextAddr a) j := by
        intro j hj
        rw [addrPlus_next]
        exact ne_addrPlus a (Nat.succ_pos j) (by omega)
      rw [h.kept a hother, cell_sent, if_pos ⟨ho, rfl⟩]
    | succ j =>
      rw [← addrPlus_next] at ho ⊢
      exact h.written j d' hd (by omega) ho
  kept b hb := by
    have hlater : ∀ j, j < ds.length → b ≠ addrPlus (nextAddr a) j := by
      intro j hj
      rw [addrPlus_next]
      exact hb (j + 1) (Nat.succ_lt_succ hj)
    have hfirst : b ≠ a := addrPlus_zero a ▸ hb 0 (Nat.succ_pos _)
    rw [h.kept b hlater, cell_sent, if_neg fun hand => hfirst hand.2]

/-- Every data byte of a SEND takes one step: acknowledged and written one place on. -/
theorem runSteps_sends (ds : List Byte) {s : State} {a : Addr} {rest : List Instant} (hs : Sending a s)
    (hin : s.inputs = byteEvents ds ++ rest) :
    ∃ t, (∀ n, runSteps (ds.length + n) s = runSteps n t) ∧ t.trace = s.trace ++ sendTrace s a ds ∧
      CellsWritten s a ds t ∧ t.inputs = rest ∧ SendFrame s t := by
  induction ds generalizing s a with
  | nil => exact ⟨s, fun n => by simp, by simp [sendTrace], ⟨by simp, fun _ _ => rfl⟩, hin, .refl s⟩
  | cons d ds ih =>
    have hstep : step s = .next (sent a d (byteEvents ds ++ rest) s) := step_sending hs hin
    obtain ⟨t, hrun, htrace, hcells, hrest, hframe⟩ := ih (sent_sending hs d (byteEvents ds ++ rest)) rfl
    have hcfg : (sent a d (byteEvents ds ++ rest) s).cfg = s.cfg := rfl
    refine ⟨t, fun n => ?_, ?_, hcells.cons, hrest, (sent_frame a d _ s).trans hframe⟩
    · rw [List.length_cons, Nat.succ_add, runSteps_succ _ hstep, hrun]
    · rw [htrace, sent_trace hs, sendTrace_congr hcfg, sendTrace_cons, List.append_assoc]

/-! ### The whole SEND with a slot (R167) -/

/-- What `CS_RISE` adds where an outbound message is pending and no inbound one: one commit, no pop. -/
theorem csRiseService_send {s : State} (hsend : s.sendPending = true) (hrecv : s.recvPending = false) :
    (csRiseService s).trace = s.trace ++ [.call .sendExecute] ∧
    (csRiseService s).env.sendCommits = s.env.sendCommits + 1 := by
  simp [csRiseService_eq, hsend, hrecv]

/-- After its command service a SEND with a slot at `g` writes from `g` on (92_eei_decisions.md D42). -/
theorem sendGranted_sending {s : State} {c : Byte} {later : List Instant} (h : AtCommand s) (g : Addr) :
    Sending g (sendGranted g (afterByte c later s)) := by
  obtain ⟨-, hsel, -, hq⟩ := h
  exact ⟨⟨rfl, rfl, hsel, rfl, hq⟩, rfl, rfl, rfl⟩

/-- Settles O54: the command step, the data phase by `runSteps_sends`, the rising edge. -/
theorem sendTransfer : Obligations.SendTransfer := by
  intro s c ds later g hinv hcmd hc hg hin
  have ⟨hp, _, _, hq⟩ := hcmd
  have hopen := hinv.headerOpen (.inl hp)
  -- the command byte
  have hstep : step s = .next (sendGranted g (afterByte c (byteEvents ds ++ [.csRise] :: later) s)) :=
    (step_send hcmd hc hin).trans (exec_send_granted (s := afterByte c _ s) _ hg)
  have hcfg : (sendGranted g (afterByte c (byteEvents ds ++ [.csRise] :: later) s)).cfg = s.cfg := rfl
  -- the data bytes
  obtain ⟨u, hrun, htrace, hcells, hrest, hframe⟩ :=
    runSteps_sends ds (sendGranted_sending (c := c) (later := byteEvents ds ++ [.csRise] :: later) hcmd g) rfl
  -- the rising edge
  have hrise : step u = .next (csRiseService { u with inputs := later }) :=
    step_rise (.inr (.inr hframe.phase)) (hframe.quiet hq) hrest
  obtain ⟨hcommit, hcount⟩ := csRiseService_send (s := { u with inputs := later }) hframe.sendPending
    (hframe.recvPending.trans hopen.recvPending)
  obtain ⟨hoff, -, -⟩ := csRiseService_flags { u with inputs := later }
  have hcell : ∀ b, cell (csRiseService { u with inputs := later }) b = cell u b := csRiseService_cell _
  refine ⟨csRiseService { u with inputs := later }, ?_, ?_, fun j d hd hlen ho => ?_, fun b hb => ?_,
    csRiseService_phase _, hoff, hcount.trans (congrArg (· + 1) hframe.sendCommits)⟩
  · rw [runSteps_succ _ hstep, hrun, runSteps_succ _ hrise, runSteps_zero]
  · have hopened : (sendGranted g (afterByte c (byteEvents ds ++ [.csRise] :: later) s)).trace =
        s.trace ++ [.exchange c s.txdata, .call (.sendPrepare (some g))] := List.append_assoc _ _ _
    rw [hcommit]
    refine congrArg (· ++ _) (htrace.trans ?_)
    rw [hopened, sendTrace_congr hcfg]
    rfl
  · rw [hcell]
    exact hcells.written j d hd hlen ((inOverlay_congr hcfg _).trans ho)
  · exact (hcell b).trans (hcells.kept b hb)

end Sys2Proof.Machine
end

section
/-! SUPPORT. The three services of a READ, each as the step that runs it (41_read.md R150, R151, R152), and the byte-clock
service RECV shares with it (42_queue_send_recv.md R171). -/

namespace Sys2Proof.Machine

open Sys2Proof

/-! ### The header of a READ, byte by byte (R150, R151) -/

/-- Settles O9: the command byte names page `hi7`, and a READ without its low byte waits. -/
theorem readCommandWaitsForLowByte : Obligations.ReadCommandWaitsForLowByte := by
  intro s hi7 later h hin hw
  rw [step_formatA_wait h (isFormatA_read hi7) hin hw, hi7Of_read]
  rfl

/-- Settles O10: the step is the address-low service, and the exchange before it changes nothing its fetch looks at. -/
theorem lowByteCompletesRead : Obligations.LowByteCompletesRead := by
  rintro s lo later _ h hin rfl
  exact step_lowByte h hin

/-! ### The data bytes of READ and RECV (R152, R171) -/

/-- `TXDATA <- CurRead(); CurInc()` through an invalid cursor. -/
theorem streamFetch_invalid {s : State} (h : s.cursor.valid = false) :
    streamFetch s = s.place Config.invalidReadByte := by
  rw [streamFetch, curRead_invalid h]
  exact curInc_invalid h

/-- A data byte of READ or RECV, whatever the cursor: the step is the fetch after the exchange. -/
theorem step_streamFetch {s : State} {b : Byte} {later : List Instant} (h : AtData s)
    (hop : s.op = .read ∨ s.op = .recv) (hin : s.inputs = [.byte b] :: later) :
    step s = .next (streamFetch (afterByte b later s)) := by
  have ⟨_, _, _, _, hq⟩ := h
  rw [step_data h hin (byteClockService_quiet (afterByte_quiet hq b later) b),
    byteClockService_fetch (s := afterByte b later s) hop]

/-- Settles O25: the fetch through a valid and through an invalid cursor. -/
theorem dataByteOfReadAndRecv : Obligations.DataByteOfReadAndRecv := by
  intro s b later h hop hin
  rw [step_streamFetch h hop hin]
  constructor
  · intro hv
    have hcur : s.cursor = { valid := true, addr := s.cursor.addr } := by rw [← hv]
    rw [streamFetch_valid (s := afterByte b later s) hcur]
    rfl
  · intro hv
    rw [streamFetch_invalid (s := afterByte b later s) hv]
    rfl

end Sys2Proof.Machine
end

section
/-! SUPPORT. The two services of a SEND as the steps and the command that run them (42_queue_send_recv.md R165, R166). -/

namespace Sys2Proof.Machine

open Sys2Proof

/-! ### SEND, command service (R165) -/

/-- Settles O16: the two answers of `send_prepare()`, each by its own equation of `exec`. -/
theorem sendCommand : Obligations.SendCommand := fun arg4 _ =>
  ⟨fun _ hg => exec_send_granted arg4 hg, fun hg => exec_send_ungranted arg4 hg⟩

/-! ### SEND, byte-clock service (R166), whatever TXDATA held -/

/-- The step of a SEND's data byte through a valid cursor. -/
theorem step_sent {s : State} {a : Addr} {b : Byte} {later : List Instant} (h : AtData s) (hop : s.op = .send)
    (hcur : s.cursor = { valid := true, addr := a }) (hin : s.inputs = [.byte b] :: later) :
    step s = .next (sent a b later s) := by
  have ⟨_, _, _, _, hq⟩ := h
  rw [step_data h hin (byteClockService_quiet (afterByte_quiet hq b later) b),
    byteClockService_send (s := afterByte b later s) hop, streamSend_valid (s := afterByte b later s) hcur]
  rfl

/-- The exchange is in the trace before the call of the write (log 17). -/
theorem sent_trace_eq (a : Addr) (b : Byte) (later : List Instant) (s : State) :
    (sent a b later s).trace = s.trace ++ [.exchange b s.txdata] ++ writeCall s a b := rfl

/-- Settles O26: through a valid cursor the step is the write, acknowledged, and what it stores is decided by the
overlays (`writeCall`, `cell_sent`); through an invalid one it is the step of a data phase without calls. -/
theorem dataByteOfSend : Obligations.DataByteOfSend := by
  intro s b later h hop hin
  by_cases hv : s.cursor.valid = true
  · have hcur : s.cursor = { valid := true, addr := s.cursor.addr } := by rw [← hv]
    refine ⟨sent s.cursor.addr b later s, step_sent h hop hcur hin, ?_, fun ⟨_, hout⟩ => ⟨?_, ?_, fun a ha => ?_⟩,
      fun hdrop => ?_⟩
    · rw [if_pos hv]
      rfl
    · simp [sent_trace_eq, writeCall, hout]
    · rw [cell_sent, if_pos ⟨hout, rfl⟩]
    · rw [cell_sent, if_neg fun hhit => ha hhit.2]
    · have hover : inOverlay s s.cursor.addr = true := hdrop.resolve_left (by simp [hv])
      exact ⟨by simp [sent_trace_eq, writeCall, hover], fun a => by simp [cell_sent, hover]⟩
  · have hinvalid : s.cursor.valid = false := Bool.eq_false_of_not_eq_true hv
    refine ⟨_, step_callFree (callFree_send h hop hinvalid) hin, ?_, fun hstored => absurd hstored.1 hv,
      fun _ => ⟨rfl, fun _ => rfl⟩⟩
    rw [if_neg hv]
    rfl

end Sys2Proof.Machine
end

section
/-! SUPPORT. ENABLE and DISABLE (43_function_control.md): each as one update of the state, and what the two do to one bit
of the reference environment's FUNC_EN (20_memory.md R80). -/

namespace Sys2Proof.Machine

open Sys2Proof

/-! ### The command services (R190, R191) -/

/-- ENABLE acknowledges, calls once and opens a data phase, whatever the state. -/
theorem exec_enable (id : Nibble) (s : State) :
    exec (.enable id) s = .next ((callFunctionEnable id (s.place s.cfg.ackByte)).openStream .enable) := rfl

/-- DISABLE acknowledges, calls once and opens a data phase, whatever the state. -/
theorem exec_disable (id : Nibble) (s : State) :
    exec (.disable id) s = .next ((callFunctionDisable id (s.place s.cfg.ackByte)).openStream .disable) := rfl

/-- Settles O18: the three operations of the service are one update, of exactly these fields. -/
theorem enableCommand : Obligations.EnableCommand := exec_enable

/-- Settles O19: the three operations of the service are one update, of exactly these fields. -/
theorem disableCommand : Obligations.DisableCommand := exec_disable

/-! ### The bits of FUNC_EN (R80) -/

/-- The set bit of `functionBit f` is the one at `f`; every id names a bit of the 16. -/
theorem getLsbD_functionBit (f g : Nibble) : (functionBit f).getLsbD g.toNat = decide (g = f) := by
  have hpow : functionBit f = BitVec.twoPow 16 f.toNat := rfl
  have hlt : f.toNat < 16 := f.isLt
  simp [hpow, BitVec.getLsbD_twoPow, hlt, BitVec.toNat_inj, eq_comm]

theorem exec_enable_funcEn {f : Nibble} {s t : State} (h : exec (.enable f) s = .next t) :
    t.env.funcEn = s.env.funcEn ||| functionBit f := by
  rw [exec_enable] at h
  obtain rfl := Host.Outcome.next.inj h
  simp

theorem exec_disable_funcEn {f : Nibble} {s t : State} (h : exec (.disable f) s = .next t) :
    t.env.funcEn = s.env.funcEn &&& ~~~functionBit f := by
  rw [exec_disable] at h
  obtain rfl := Host.Outcome.next.inj h
  simp

/-- ENABLE sets the bit of its id and keeps the others. -/
theorem exec_enable_bit {f : Nibble} {s t : State} (h : exec (.enable f) s = .next t) (g : Nibble) :
    t.env.funcEn.getLsbD g.toNat = (s.env.funcEn.getLsbD g.toNat || decide (g = f)) := by
  rw [exec_enable_funcEn h, BitVec.getLsbD_or, getLsbD_functionBit]

/-- DISABLE clears the bit of its id and keeps the others. -/
theorem exec_disable_bit {f : Nibble} {s t : State} (h : exec (.disable f) s = .next t) (g : Nibble) :
    t.env.funcEn.getLsbD g.toNat = (s.env.funcEn.getLsbD g.toNat && !decide (g = f)) := by
  have hlt : g.toNat < 16 := g.isLt
  rw [exec_disable_funcEn h, BitVec.getLsbD_and, BitVec.getLsbD_not, getLsbD_functionBit]
  simp [hlt]

/-- Settles O24 (R193): a second ENABLE takes the union with the same bit again, and the rest is read off bit by bit. -/
theorem functionControlIdempotent : Obligations.FunctionControlIdempotent := by
  intro f s t u
  refine ⟨fun ht hu => ⟨?_, ?_⟩, fun _ hu => ?_, fun hst g hg => ?_⟩
  · simp [exec_enable_bit ht]
  · rw [exec_enable_funcEn hu, exec_enable_funcEn ht, BitVec.or_assoc, BitVec.or_self]
  · simp [exec_disable_bit hu]
  · rcases hst with ht | ht
    · simp [exec_enable_bit ht, hg]
    · simp [exec_disable_bit ht, hg]

end Sys2Proof.Machine
end

section
/-! SUPPORT. RESET, TEST and the unsupported commands (44_reset_test_unsupported.md): the command services, and one data
byte of a TEST. -/

namespace Sys2Proof.Machine

open Sys2Proof

/-! ### The command services (R200, R201, R204) -/

/-- RESET is the call and the halt, nothing before and nothing after. -/
theorem exec_reset (s : State) : exec .reset s = .next (raiseSystemReset s) := rfl

/-- The four rows of TEST have one meaning, and the nibble has no part in it (R206). -/
theorem exec_testRow {i : Instr}
    (h : ∃ arg4, i = .test0to7 arg4 ∨ i = .test8to11 arg4 ∨ i = .test12to13 arg4 ∨ i = .test14) (s : State) :
    exec i s = .next (testCommand s) := by
  obtain ⟨arg4, rfl | rfl | rfl | rfl⟩ := h
  · rfl
  · rfl
  · rfl
  · rfl

/-- The two unsupported rows have one meaning, whatever their nibbles. -/
theorem exec_unsupRow {i : Instr} (h : ∃ opc arg4, i = .unsup5 arg4 ∨ i = .unsup6to7 opc arg4) (s : State) :
    exec i s = .next (unsupCommand s) := by
  obtain ⟨opc, arg4, rfl | rfl⟩ := h
  · rfl
  · rfl

/-- Settles O20: the call and the halt are one update, of exactly these fields. -/
theorem resetCommand : Obligations.ResetCommand := exec_reset

/-- Settles O21: on every row the three operations of the model's `testCommand`, whose name is therefore taken, are one
update, of exactly these fields. -/
theorem testCommandRows : Obligations.TestCommand := fun _ s hrow => exec_testRow hrow s

/-- Settles O22: on both rows the two operations of `unsupCommand` are one update, and the cursor is not among its
fields. -/
theorem unsupportedCommand : Obligations.UnsupportedCommand := fun _ s hrow => exec_unsupRow hrow s

/-! ### TEST, byte-clock service (R202) -/

theorem trunc8_eq (a : Addr) : trunc8 a = BitVec.ofNat 8 (a.toNat % 256) := by
  simpa using trunc8_addrPlus a 0

/-- Through an invalid cursor a TEST echoes the same byte again and again: `CurInc()` leaves the cursor (R69). -/
theorem callFree_test_invalid {s : State} (h : AtData s) (hop : s.op = .test) (hv : s.cursor.valid = false) :
    CallFree (fun _ => trunc8 s.cursor.addr) (fun _ => s.cursor) s := by
  refine ⟨h, rfl, fun _ b u ho _ hc => ?_⟩
  rw [← hc] at hv
  rw [← hc, byteClockService_test (ho.trans hop), streamTest]
  exact curInc_invalid hv

/-- Settles O27: both steps are the first of a call-free data phase, the echo `v 0` of the cursor before the increment and
the cursor `cur 1` after it. -/
theorem dataByteOfTest : Obligations.DataByteOfTest := by
  intro s b later h hop hin
  rw [← trunc8_eq]
  constructor
  · intro hv
    have hcur : s.cursor = { valid := true, addr := s.cursor.addr } := by rw [← hv]
    have hstep := step_callFree (callFree_test h hop hcur) hin
    rw [addrPlus_zero] at hstep
    exact hstep
  · intro hv
    exact step_callFree (callFree_test_invalid h hop hv) hin

end Sys2Proof.Machine
end

section
/-! SUPPORT. The analog monitor (45_analog_monitor.md): what an instant of its events does to a block with nothing
pending, and the events that start the sampler, feed it and are ignored by it. -/

namespace Sys2Proof.Machine

open Sys2Proof

/-! ### The events of the monitor, presented and settled (R220, R223, R224, R228, R229) -/

/-- A stopped sampler takes no result (R228). -/
theorem convService_stopped {s : State} (hrun : s.samplerRun = false) (v : Nat) : convService v s = s := by
  simp [convService, hrun]

/-- A running sampler takes a result that fits: its slot, its channel's turn, the comparison (R220 to R222). -/
theorem convService_running {s : State} {v : Nat} (hrun : s.samplerRun = true) (hv : v < 2 ^ s.cfg.sampleW) :
    convService v s = { s with
      sa := s.sa.setChannel s.seqIdx v, seqIdx := nextChannel s.seqIdx,
      awdPend := s.awdPend || decide (s.seqIdx = 1 ∧ s.sa.threshold < v) } := by
  have hfit : sampleOf s.cfg v = v := Nat.mod_eq_of_lt hv
  rw [convService, if_pos hrun, hfit, exceeds, Bool.decide_and]
  rfl

/-- Only the slot of the channel changes. -/
theorem SampleArray.setChannel_eq (sa : SampleArray) (i : Fin 3) (v : Nat) : sa.setChannel i v =
    { sa with
      vbus := if i = 0 then v else sa.vbus, isense := if i = 1 then v else sa.isense,
      vref := if i = 2 then v else sa.vref } := by
  match i with
  | 0 => rfl
  | 1 => rfl
  | 2 => rfl

theorem nextChannel_eq (i : Fin 3) : nextChannel i = if i = 2 then 0 else if i = 1 then 2 else 1 := by
  revert i
  decide

theorem settleConverter_none {s : State} (ha : s.awdPend = false) (ho : s.ovrPend = false) : settleConverter s = s := by
  simp [settleConverter, ha, ho]

theorem settleConverter_breach {s : State} (ha : s.awdPend = true) (ho : s.ovrPend = false) :
    settleConverter s = breachService s := by
  simp [settleConverter, ha, ho]

/-- The overrun service of a stopped sampler is the clearing of its latch (R228). -/
theorem settleConverter_stopped {s : State} (ha : s.awdPend = false) (hrun : s.samplerRun = false) :
    settleConverter s = { s with ovrPend := false } := by
  cases ho : s.ovrPend with
  | false => rw [settleConverter_none ha ho, ← ho]
  | true => simp [settleConverter, ha, ho, overrunService_eq, hrun]

/-- `SAMPLER_START` leaves the converter nothing to settle (R223). -/
theorem settleConverter_samplerStart (s : State) : settleConverter (samplerStart s) = samplerStart s :=
  settleConverter_none rfl rfl

/-- A step of monitor events outside HALT: they are presented, and what they latched is settled. -/
theorem step_presented {s u : State} {now : Instant} {later : List Instant} (hq : Quiet s) (hp : s.phase ≠ .halt)
    (hin : s.inputs = now :: later) (hnow : ∀ e ∈ now, e.ofMonitor = true)
    (hu : presentAll now { s with inputs := later } = .next u) : step s = .next (settleConverter u) := by
  obtain ⟨-, -, hc, hb⟩ := hq
  obtain ⟨t, n, ht, hframe, -⟩ := presentAll_monitorFrame hnow (s := { s with inputs := later }) hp
  obtain rfl : t = u := Host.Outcome.next.inj (ht.symm.trans hu)
  rw [step_cons hin, hu]
  exact (arbitrate_settleConverter (hframe.phase.trans_ne hp) (hframe.csPend.trans hc) (hframe.bytePend.trans hb)).1

/-! ### A stopped sampler (R228) -/

/-- Of any number of CONV and OVERRUN events a stopped sampler keeps the overrun latch at most. -/
theorem presentAll_stopped {es : Instant} {s : State} (hes : ∀ e ∈ es, e = .overrun ∨ ∃ v, e = .conv v)
    (hp : s.phase ≠ .halt) (hrun : s.samplerRun = false) : ∃ b, presentAll es s = .next { s with ovrPend := b } := by
  induction es generalizing s with
  | nil => exact ⟨s.ovrPend, rfl⟩
  | cons e es ih =>
    have hes' : ∀ e ∈ es, e = .overrun ∨ ∃ v, e = .conv v := fun e he => hes e (by simp [he])
    rcases hes e (by simp) with rfl | ⟨v, rfl⟩
    · obtain ⟨b, hb⟩ := ih hes' (s := { s with ovrPend := true }) hp hrun
      exact ⟨b, by rw [presentAll, present, next_unlessHalted _ hp, andThen_next, hb]⟩
    · obtain ⟨b, hb⟩ := ih hes' hp hrun
      exact ⟨b, by rw [presentAll, present, next_unlessHalted _ hp, andThen_next, convService_stopped hrun, hb]⟩

/-- Settles O39: in HALT no event is heard; elsewhere at most the overrun latch is set, and its service clears it. -/
theorem haltedSamplerIgnores : Obligations.HaltedSamplerIgnores := by
  intro s now later hq hrun hin hnow
  have hmon : ∀ e ∈ now, e.ofMonitor = true := fun e he => by
    rcases hnow e he with rfl | ⟨v, rfl⟩
    · rfl
    · rfl
  by_cases hp : s.phase = .halt
  · rw [step_cons hin, presentAll_monitor_halt hmon (s := { s with inputs := later }) hp]
    exact arbitrate_halt (s := { s with inputs := later }) hp _
  · have ⟨ha, ho, _, _⟩ := hq
    obtain ⟨b, hb⟩ := presentAll_stopped hnow (s := { s with inputs := later }) hp hrun
    have hclear : settleConverter { s with inputs := later, ovrPend := b } = { s with inputs := later } := by
      rw [settleConverter_stopped (s := { s with inputs := later, ovrPend := b }) ha hrun, ← ho]
    rw [step_presented hq hp hin hmon hb, hclear]

/-! ### A result of a running sampler (R220 to R224) -/

/-- CONV in a block with nothing pending: the result is taken, then a breach has its service. -/
theorem step_conv {s : State} {v : Nat} {later : List Instant} (hq : Quiet s) (hp : s.phase ≠ .halt)
    (hin : s.inputs = [.conv v] :: later) :
    step s = .next (settleConverter (convService v { s with inputs := later })) :=
  step_presented hq hp hin (List.forall_mem_singleton.mpr rfl)
    ((presentAll_single _ _).trans (next_unlessHalted _ (s := { s with inputs := later }) hp))

/-- Without a breach the comparison latches nothing (R222). -/
theorem convService_below {s : State} {v : Nat} (hrun : s.samplerRun = true) (hv : v < 2 ^ s.cfg.sampleW)
    (hbelow : ¬ (s.seqIdx = 1 ∧ s.sa.threshold < v)) :
    convService v s = { s with sa := s.sa.setChannel s.seqIdx v, seqIdx := nextChannel s.seqIdx } := by
  rw [convService_running hrun hv, decide_eq_false hbelow, Bool.or_false]

/-- A result above the threshold on the monitored channel latches the breach (R222). -/
theorem convService_breach {s : State} {v : Nat} (hrun : s.samplerRun = true) (hv : v < 2 ^ s.cfg.sampleW)
    (hidx : s.seqIdx = 1) (habove : s.sa.threshold < v) :
    convService v s = { s with sa := { s.sa with isense := v }, seqIdx := 2, awdPend := true } := by
  rw [convService_running hrun hv, decide_eq_true ⟨hidx, habove⟩, Bool.or_true, hidx]
  rfl

/-- Settles O36: the comparison latches nothing, so the result taken is the whole step. -/
theorem conversionStored : Obligations.ConversionStored := by
  intro s v later hq hp hrun hin hv hbelow
  have ⟨ha, ho, _, _⟩ := hq
  have htaken := convService_below (s := { s with inputs := later }) hrun hv hbelow
  rw [step_conv hq hp hin, htaken, settleConverter_none, SampleArray.setChannel_eq, nextChannel_eq]
  · exact ha
  · exact ho

/-- Settles O37: the comparison latches the breach, whose service reads the slot just written. -/
theorem breachServiced : Obligations.BreachServiced := by
  intro s v later hq hp hrun hin hv hidx habove
  have ⟨ha, ho, _, _⟩ := hq
  have htaken := convService_breach (s := { s with inputs := later }) hrun hv hidx habove
  rw [step_conv hq hp hin, htaken, settleConverter_breach, breachService_eq, ← ha]
  · rfl
  · exact ho

/-! ### The start of the sampler (R229) -/

/-- `SAMPLER_START` after another event of the monitor acts on what that event left, and nothing is pending after it. -/
theorem step_then_start {s u : State} {e : Event} {later : List Instant} (hq : Quiet s) (hp : s.phase ≠ .halt)
    (hin : s.inputs = [e, .samplerStart] :: later) (he : e.ofMonitor = true)
    (hu : present e { s with inputs := later } = .next u) (hpu : u.phase ≠ .halt) :
    step s = .next (samplerStart u) := by
  have hall : presentAll [e, .samplerStart] { s with inputs := later } = .next (samplerStart u) := by
    rw [presentAll, hu, andThen_next, presentAll_single, present, next_unlessHalted _ hpu]
  have hmon : ∀ e' ∈ [e, .samplerStart], e'.ofMonitor = true :=
    List.forall_mem_cons.mpr ⟨he, List.forall_mem_singleton.mpr rfl⟩
  rw [step_presented hq hp hin hmon hall, settleConverter_samplerStart]

/-- Settles O40: by itself, after a latched breach and after a latched overrun `SAMPLER_START` is one update, the
pending service first. -/
theorem samplerStarts : Obligations.SamplerStarts := by
  intro s later hq hp
  have ⟨ha, ho, _, _⟩ := hq
  refine ⟨fun hin => ?alone, fun v hrun hidx hv habove hin => ?afterBreach, fun hin => ?afterOverrun⟩
  case alone =>
    have hstart := samplerStart_quiet (s := { s with inputs := later }) ha ho
    exact step_of_quiet hin ((next_unlessHalted _ (s := { s with inputs := later }) hp).trans (congrArg _ hstart)) hq
  case afterBreach =>
    have htaken := convService_breach (s := { s with inputs := later }) hrun hv hidx habove
    have hconv := (next_unlessHalted (convService v) (s := { s with inputs := later }) hp).trans (congrArg _ htaken)
    rw [step_then_start hq hp hin rfl hconv hp, samplerStart_eq]
    simp [ha, ho]
  case afterOverrun =>
    have hoverrun := next_unlessHalted (fun u => { u with ovrPend := true }) (s := { s with inputs := later }) hp
    rw [step_then_start hq hp hin rfl hoverrun hp, samplerStart_eq]
    simp [ha, ho]

end Sys2Proof.Machine
end

section
/-! SUPPORT. What an instant does to FAULT, and what becomes of an instant that holds a rising edge beside other events
(60_exceptions.md R256 to R262). -/

namespace Sys2Proof.Machine

open Sys2Proof

/-! ### FAULT along a step (R262) -/

/-- FAULT, once set, is set after. -/
def FaultKept (s t : State) : Prop := s.fault = true → t.fault = true

theorem FaultKept.refl (s : State) : FaultKept s s := id

theorem FaultKept.trans {s t u : State} (hst : FaultKept s t) (htu : FaultKept t u) : FaultKept s u := htu ∘ hst

theorem FaultKept.of_eq {s t : State} (h : t.fault = s.fault) : FaultKept s t := h.trans

theorem FaultKept.unlessHalted {f : State → State} {s : State} (hf : FaultKept s (f s)) :
    FaultKept s (unlessHalted f s) := by
  unfold Machine.unlessHalted
  split_ifs
  · exact .refl s
  · exact hf

@[simp] theorem convService_fault (v : Nat) (s : State) : (convService v s).fault = s.fault := by
  unfold convService
  split_ifs <;> rfl

@[simp] theorem envMove_fault (m : EnvMove) (s : State) : (envMove m s).fault = s.fault := by
  cases m <;> rfl

/-- A service that SAMPLER_START brings about sets FAULT and never clears it (R229, log 25). -/
theorem faultKept_samplerStart (s : State) : FaultKept s (samplerStart s) := by
  intro hf
  rw [samplerStart_eq]
  simp [hf]

/-- Of all events RESET_IN alone clears FAULT. -/
theorem present_faultKept {e : Event} {s t : State} (he : e ≠ .resetIn) (h : present e s = .next t) :
    FaultKept s t := by
  cases e with
  | csFall => rcases presentFall_cases h with ⟨-, rfl⟩ | ⟨-, -, rfl⟩ <;> exact .of_eq rfl
  | csRise => rcases presentRise_cases h with ⟨-, rfl⟩ | ⟨-, -, -, rfl⟩ <;> exact .of_eq rfl
  | byte m => rcases presentByte_cases h with ⟨-, rfl⟩ | ⟨-, -, -, -, -, rfl⟩ <;> exact .of_eq rfl
  | sck b => rcases presentBit_cases h with ⟨-, rfl⟩ | ⟨-, -, -, rfl⟩ | ⟨-, -, -, rfl⟩ <;> exact .of_eq rfl
  | conv v => cases h; exact .unlessHalted (.of_eq (convService_fault v s))
  | overrun => cases h; exact .unlessHalted (.of_eq rfl)
  | resetIn => exact absurd rfl he
  | cfgThreshold v => cases h; exact .unlessHalted (.of_eq rfl)
  | samplerStart => cases h; exact .unlessHalted (faultKept_samplerStart s)
  | env m => cases h; exact .of_eq (envMove_fault m s)

@[simp] theorem edgeService_fault (s : State) : (edgeService s).fault = s.fault := by
  rw [edgeService_eq]
  split_ifs
  · rfl
  · rfl
  · rw [csRiseService_eq]

/-- No service clears FAULT; the breach and the overrun service set it. -/
theorem service_faultKept {src : Source} {s t : State} (h : service src s = .next t) : FaultKept s t := by
  rcases service_cases h with rfl | rfl | rfl | ⟨-, i, l, hx⟩ | ⟨-, rfl⟩ | ⟨-, rfl⟩ | ⟨-, rfl⟩ | rfl
  · rw [breachService_eq]
    exact fun _ => rfl
  · rw [overrunService_eq]
    exact fun hf => Bool.or_eq_true_iff.2 (.inl hf)
  · exact .of_eq (edgeService_fault s)
  · exact .of_eq (exec_frame hx).fault
  · exact .of_eq rfl
  · exact .of_eq rfl
  · exact .of_eq (byteClockService_fault _ _)
  · exact .of_eq rfl

/-- Settles O45: presentation but for RESET_IN, and every service, keep FAULT, hence the step does. -/
theorem faultIsSticky : Obligations.FaultIsSticky := by
  intro s t now later hin hreset h
  refine step_rel .refl .trans (fun _ _ => .of_eq rfl) (fun now' later' hin' e he _ _ => ?_)
    (fun _ _ _ _ => service_faultKept) h
  obtain ⟨rfl, -⟩ := List.cons.inj (hin.symm.trans hin')
  exact present_faultKept (ne_of_mem_of_not_mem he hreset)

/-! ### A rising edge beside other events (R257, R258) -/

/-- A rising edge in an open transfer sets its latch. -/
theorem present_rise_open {s : State} (hh : s.phase ≠ .halt) (hi : s.phase ≠ .idle) (hc : s.csPend = false) :
    present .csRise s = .next { s with csPend := true } := by
  simp [present, presentRise, hh, hi, hc]

/-- An awaited byte is exchanged on the wire, whatever else is pending (40_framing.md R120). -/
theorem present_byte_open {s : State} (b : Byte) (hh : s.phase ≠ .halt) (hi : s.phase ≠ .idle)
    (hsel : s.selected = true) (hbit : s.bitcnt = 0#3) (hbyte : s.bytePend = false) :
    present (.byte b) s = .next (s.exchange b s.txdata) :=
  AwaitsByte.presentByte ⟨hh, hi, hsel, hbit, hbyte⟩ b

/-- An overrun outside HALT sets its latch. -/
theorem present_overrun_open {s : State} (hh : s.phase ≠ .halt) :
    present .overrun s = .next { s with ovrPend := true } :=
  next_unlessHalted _ hh

/-- A breaching result outside HALT is taken at once and latches the breach (45_analog_monitor.md R220, R222). -/
theorem present_conv_breach {s : State} {v : Nat} (hh : s.phase ≠ .halt) (hrun : s.samplerRun = true)
    (hv : v < 2 ^ s.cfg.sampleW) (hidx : s.seqIdx = 1) (habove : s.sa.threshold < v) :
    present (.conv v) s = .next { s with sa := { s.sa with isense := v }, seqIdx := 2, awdPend := true } :=
  (next_unlessHalted _ hh).trans (congrArg _ (convService_breach hrun hv hidx habove))

/-- What the `CS_RISE` service leaves of the latches: it drops a byte not yet serviced (40_framing.md R131). -/
theorem csRiseService_quiet {s : State} (ha : s.awdPend = false) (ho : s.ovrPend = false) (hc : s.csPend = false) :
    Quiet (csRiseService s) := by
  rw [csRiseService_eq]
  exact ⟨ha, ho, hc, rfl⟩

/-- An edge in an open transfer with nothing of the converter pending is the last service, a byte pending or not. -/
theorem arbitrate_rise_last {s : State} (n : Nat) (hh : s.phase ≠ .halt) (hi : s.phase ≠ .idle)
    (ha : s.awdPend = false) (ho : s.ovrPend = false) (hc : s.csPend = true) :
    arbitrate (n + 1) s = .next (csRiseService { s with csPend := false }) := by
  rw [arbitrate_edge n hh ha ho hc, edgeService_eq, if_neg hh, if_neg hi]
  exact arbitrate_quiet (csRiseService_quiet (s := { s with csPend := false }) ha ho rfl) n

/-- With a breach, an overrun and a rising edge pending, they are serviced in this order, and a byte gets no service. -/
theorem arbitrate_breach_overrun_rise {s : State} (hh : s.phase ≠ .halt) (hi : s.phase ≠ .idle)
    (ha : s.awdPend = true) (ho : s.ovrPend = true) (hc : s.csPend = true) :
    arbitrate serviceRounds s =
      .next (csRiseService { overrunService (breachService s) with csPend := false }) := by
  obtain ⟨ha', ho', hc', -, hp'⟩ := breachService_latches s
  have hframe := monitorFrame_overrunService (breachService s)
  have hlatches : (overrunService (breachService s)).awdPend = false ∧
      (overrunService (breachService s)).ovrPend = false := by
    rw [overrunService_eq]
    exact ⟨ha', rfl⟩
  have hphase : (overrunService (breachService s)).phase = s.phase := hframe.phase.trans hp'
  calc arbitrate serviceRounds s = arbitrate 3 (breachService s) := arbitrate_breach 3 hh ha
    _ = arbitrate 2 (overrunService (breachService s)) :=
      arbitrate_overrun 2 (hp'.trans_ne hh) ha' (ho'.trans ho)
    _ = .next (csRiseService { overrunService (breachService s) with csPend := false }) :=
      arbitrate_rise_last 1 (hphase.trans_ne hh) (hphase.trans_ne hi) hlatches.1 hlatches.2
        (hframe.csPend.trans (hc'.trans hc))

/-! ### A byte and a rising edge (40_framing.md R131, 60_exceptions.md R258) -/

/-- A byte and a rising edge of one instant, in either order, leave the exchange and both latches. -/
theorem presentAll_byte_rise {s : State} {b : Byte} {now : Instant} (h : AwaitsByte s) (hc : s.csPend = false)
    (hnow : now = [.byte b, .csRise] ∨ now = [.csRise, .byte b]) :
    presentAll now s = .next { s.exchange b s.txdata with csPend := true } := by
  obtain ⟨hh, hi, hsel, hbit, hbyte⟩ := h
  rcases hnow with rfl | rfl <;>
    simp [presentAll, present_byte_open, present_rise_open, State.exchange, hh, hi, hsel, hbit, hbyte, hc]

/-- A header byte or a data byte is awaited only in an open transfer. -/
theorem phase_of_situation {s : State} (h : AtCommand s ∨ AtLowByte s ∨ AtData s) :
    s.phase = .cmd ∨ s.phase = .addrLo ∨ s.phase = .stream := by
  rcases h with ⟨hp, -⟩ | ⟨hp, -⟩ | ⟨hp, -⟩
  · exact .inl hp
  · exact .inr (.inl hp)
  · exact .inr (.inr hp)

theorem quiet_of_situation {s : State} (h : AtCommand s ∨ AtLowByte s ∨ AtData s) : Quiet s := by
  rcases h with ⟨-, -, -, hq⟩ | ⟨-, -, -, hq⟩ | ⟨-, -, -, -, hq⟩ <;> exact hq

/-- Settles O31: both steps end in the `CS_RISE` service after the exchange, which clears BYTE_PEND whatever it was. -/
theorem unservicedByteIsDropped : Obligations.UnservicedByteIsDropped := by
  intro s b now later hsit hnow hin
  obtain ⟨hh, hi, hsel, hbit, hbyte⟩ := awaitsByte_of_situation hsit
  have hq := quiet_of_situation hsit
  have ⟨ha, ho, hc, _⟩ := hq
  have hawaits : AwaitsByte { s with inputs := later } := ⟨hh, hi, hsel, hbit, hbyte⟩
  have hboth : step s = .next (csRiseService (afterByte b later s)) := by
    have hservice := arbitrate_rise_last 3
      (s := { State.exchange { s with inputs := later } b s.txdata with csPend := true }) hh hi ha ho rfl
    rw [step_cons hin, presentAll_byte_rise hawaits hc hnow]
    refine hservice.trans (congrArg _ ?_)
    rw [csRiseService_eq, csRiseService_eq]
    simp [State.exchange, afterByte, hc]
  have halone : step { afterByte b later s with inputs := [.csRise] :: later } =
      .next (csRiseService (afterByte b later s)) :=
    step_rise (s := { afterByte b later s with inputs := [.csRise] :: later })
      (show s.phase = .cmd ∨ s.phase = .addrLo ∨ s.phase = .stream from phase_of_situation hsit) hq rfl
  exact ⟨_, hboth, halone⟩

/-! ### The arbiter's priority (R256, R257) -/

theorem arbiter_halt {s : State} (hh : s.phase = .halt) : arbiter s = none := if_pos hh

theorem arbiter_breach {s : State} (hh : s.phase ≠ .halt) (ha : s.awdPend = true) : arbiter s = some .breach := by
  simp [arbiter, hh, ha]

theorem arbiter_overrun {s : State} (hh : s.phase ≠ .halt) (ha : s.awdPend = false) (ho : s.ovrPend = true) :
    arbiter s = some .overrun := by
  simp [arbiter, hh, ha, ho]

theorem arbiter_edge {s : State} (hh : s.phase ≠ .halt) (ha : s.awdPend = false) (ho : s.ovrPend = false)
    (hc : s.csPend = true) : arbiter s = some .edge := by
  simp [arbiter, hh, ha, ho, hc]

/-- A byte is picked when it is pending and enabled and nothing else is pending. -/
theorem arbiter_byte_iff {s : State} (hh : s.phase ≠ .halt) : arbiter s = some .byte ↔
    s.awdPend = false ∧ s.ovrPend = false ∧ s.csPend = false ∧ s.bytePend = true ∧ byteEnabled s = true := by
  unfold arbiter
  rw [if_neg hh]
  split_ifs with ha ho hc hb
  · simp [ha]
  · simp [ho]
  · simp [hc]
  · simpa [ha, ho, hc] using hb
  · simpa [ha, ho, hc] using hb

/-! ### A breach, an overrun, a rising edge and a byte (R257, R258) -/

/-- A byte is awaited, no edge is pending, and the running sampler stands on the monitored channel below the result `v`. -/
structure Contending (v : Nat) (s : State) : Prop where
  awaits : AwaitsByte s
  csPend : s.csPend = false
  running : s.samplerRun = true
  channel : s.seqIdx = 1
  fits : v < 2 ^ s.cfg.sampleW
  above : s.sa.threshold < v

/-- What the presentation of the breaching result `v`, an overrun, a rising edge and the byte `b` leaves: the result and
the exchange, and every latch set. -/
def contended (v : Nat) (b : Byte) (s : State) : State :=
  { s.exchange b s.txdata with
    sa := { s.sa with isense := v }, seqIdx := 2, awdPend := true, ovrPend := true, csPend := true }

/-- The four orders leave the same state: each event writes what no other looks at. -/
theorem presentAll_contending {v : Nat} {b : Byte} {s : State} {now : Instant} (h : Contending v s)
    (hnow : now = [.conv v, .overrun, .csRise, .byte b] ∨ now = [.byte b, .csRise, .overrun, .conv v] ∨
      now = [.csRise, .byte b, .conv v, .overrun] ∨ now = [.overrun, .conv v, .byte b, .csRise]) :
    presentAll now s = .next (contended v b s) := by
  obtain ⟨⟨hh, hi, hsel, hbit, hbyte⟩, hc, hrun, hidx, hv, habove⟩ := h
  rcases hnow with rfl | rfl | rfl | rfl <;>
    simp [presentAll, present_conv_breach, present_overrun_open, present_rise_open, present_byte_open, contended,
      State.exchange, hh, hi, hsel, hbit, hbyte, hc, hrun, hidx, hv, habove]

/-- What the services of that instant leave of a granted SEND. -/
theorem csRiseService_contended {v : Nat} {b : Byte} {s : State} (hrun : s.samplerRun = true)
    (hsend : s.sendPending = true) (hrecv : s.recvPending = false) :
    csRiseService { overrunService (breachService (contended v b s)) with csPend := false } =
      { s with
        rxdata := b, shift := 0#8, bitcnt := 0#3, misoBits := 0#8, selected := false, byteIe := false, phase := .idle,
        sendPending := false, recvPending := false, awdPend := false, ovrPend := false, csPend := false,
        bytePend := false, fault := true, samplerRun := false, seqIdx := 2,
        sa := { s.sa with isense := v, snapshot := v },
        trace := s.trace ++ [.exchange b s.txdata, .call .powerFault, .call .sendExecute],
        env := { s.env with pfCount := s.env.pfCount + 1, sendCommits := s.env.sendCommits + 1 } } := by
  rw [csRiseService_eq, overrunService_eq, breachService_eq]
  simp [contended, State.exchange, hrun, hsend, hrecv]

/-- Settles O42: the arbiter's priority, and the instant whose four events leave one state in every listed order, serviced
breach, overrun, edge. -/
theorem simultaneousEventsByPriority : Obligations.SimultaneousEventsByPriority := by
  refine ⟨fun s => ⟨arbiter_halt, fun hh => ⟨arbiter_breach hh, arbiter_overrun hh, arbiter_edge hh, ?byte⟩⟩, ?instant⟩
  case byte => rw [arbiter_byte_iff hh, byteEnabled_iff]
  case instant =>
    intro s v b now later hdata _ hsend hrecv hrun hidx hv habove hnow hin
    obtain ⟨hh, hi, hsel, hbit, hbyte⟩ := awaitsByte_of_situation (.inr (.inr hdata))
    have ⟨_, _, _, _, _, _, hc, _⟩ := hdata
    have hcontending : Contending v { s with inputs := later } :=
      ⟨⟨hh, hi, hsel, hbit, hbyte⟩, hc, hrun, hidx, hv, habove⟩
    have hstep : step s = .next (csRiseService { overrunService (breachService
        (contended v b { s with inputs := later })) with csPend := false }) := by
      rw [step_cons hin, presentAll_contending hcontending hnow]
      exact arbitrate_breach_overrun_rise (s := contended v b { s with inputs := later }) hh hi rfl rfl rfl
    rw [csRiseService_contended (s := { s with inputs := later }) hrun hsend hrecv] at hstep
    exact ⟨_, hstep, rfl, rfl, rfl, rfl, rfl, rfl, rfl, fun _ => rfl⟩

end Sys2Proof.Machine
end

section
/-! SUPPORT. What the address decoder answers inside the overlays, and the reference environment (20_memory.md R62, R63,
R80). -/

namespace Sys2Proof.Machine

open Sys2Proof

/-! ### Inside the overlays (R63) -/

/-- A read of an overlay address issues no call (R62). -/
theorem memReadCalls_of_inOverlay {s : State} {a : Addr} (h : inOverlay s a = true) : memReadCalls s a = [] :=
  if_pos h

theorem inOverlay_statusAddr (s : State) : inOverlay s s.cfg.statusAddr = true := by
  simp [inOverlay_eq]

/-- The slots lie one after another inside the Sample Array, below 0x8000: no address of theirs wraps. -/
theorem toNat_addrPlus_slot {c : Config} (hc : c.wf = true) {i k : Nat} (hi : i ≤ 4) (hk : k < c.sampleBytes) :
    (addrPlus c.sampleBase (c.sampleBytes * i + k)).toNat = c.sampleBase.toNat + (c.sampleBytes * i + k) ∧
    c.sampleBytes * i + k < 5 * c.sampleBytes := by
  obtain ⟨-, hfits, -⟩ := (Config.wf_iff c).1 hc
  have hi' : c.sampleBytes * i ≤ c.sampleBytes * 4 := Nat.mul_le_mul_left _ hi
  refine ⟨?_, by omega⟩
  simp only [addrPlus, BitVec.toNat_add, BitVec.toNat_ofNat]
  omega

/-- The decoder's arithmetic finds slot and byte again. -/
theorem overlayByte?_slot {s : State} (hc : s.cfg.wf = true) {i k : Nat} (hi : i ≤ 4) (hk : k < s.cfg.sampleBytes) :
    overlayByte? s (addrPlus s.cfg.sampleBase (s.cfg.sampleBytes * i + k)) = some (sampleByte (s.sa.slot i) k) := by
  obtain ⟨hpos, -, hapart⟩ := (Config.wf_iff s.cfg).1 hc
  obtain ⟨haddr, hinside⟩ := toNat_addrPlus_slot hc hi hk
  have hstatus : addrPlus s.cfg.sampleBase (s.cfg.sampleBytes * i + k) ≠ s.cfg.statusAddr := fun heq => by
    rw [heq] at haddr
    omega
  have hslot : (s.cfg.sampleBytes * i + k) / s.cfg.sampleBytes = i := by
    rw [Nat.mul_add_div hpos, Nat.div_eq_of_lt hk, Nat.add_zero]
  have hbyte : (s.cfg.sampleBytes * i + k) % s.cfg.sampleBytes = k := by
    rw [Nat.mul_add_mod, Nat.mod_eq_of_lt hk]
  unfold overlayByte?
  rw [if_neg hstatus, haddr, Nat.add_sub_cancel_left, hslot, hbyte]
  exact if_pos ⟨Nat.le_add_right _ _, hinside⟩

/-- The slots in the order of 10_state.md R33. -/
theorem SampleArray.slot_eq_getD (sa : SampleArray) {i : Nat} (hi : i ≤ 4) :
    sa.slot i = [sa.vbus, sa.isense, sa.vref, sa.threshold, sa.snapshot].getD i 0 := by
  match i, hi with
  | 0, _ | 1, _ | 2, _ | 3, _ | 4, _ => rfl

/-- Settles O12: STATUS by its own address, a slot's byte by the decoder's arithmetic; in an overlay no call is made. -/
theorem decoderAnswersOverlays : Obligations.DecoderAnswersOverlays := by
  intro s hc
  refine ⟨⟨memReadByte_statusAddr s, memReadCalls_of_inOverlay (inOverlay_statusAddr s)⟩, fun i k hi hk => ?_⟩
  have hbyte := overlayByte?_slot hc hi hk
  refine ⟨?_, memReadCalls_of_inOverlay (by rw [inOverlay, hbyte]; rfl)⟩
  rw [memReadByte, hbyte, Option.getD_some, sampleByte, SampleArray.slot_eq_getD _ hi, Nat.shiftRight_eq_div_pow]

/-! ### The reference environment (R80) -/

/-- A cell the Register File does not list holds what unlisted cells hold. -/
theorem cell_unlisted {s : State} {a : Addr} (h : s.env.mem.read? a.toNat = none) : cell s a = s.env.blank := by
  rw [cell, h, Option.none_or]

/-- Where unlisted cells hold a byte, every cell holds one. -/
theorem exists_cell {s : State} {w : Byte} (hw : s.env.blank = some w) (a : Addr) : ∃ v, cell s a = some v := by
  rw [cell, hw]
  cases s.env.mem.read? a.toNat with
  | none => exact ⟨w, rfl⟩
  | some v => exact ⟨v, rfl⟩

/-- Settles O14: an unlisted cell holds the blank byte, a listed one its own; reads and writes go through `cell`. -/
theorem referenceEnvironmentIsTotal : Obligations.ReferenceEnvironmentIsTotal := by
  refine ⟨fun c a => cell_unlisted rfl, fun s a w hw => ⟨fun h => (cell_unlisted h).trans hw, ?_⟩,
    fun s a b v ha => ⟨rfl, ?_⟩⟩
  · obtain ⟨v, hv⟩ := exists_cell hw a
    exact ⟨v, hv, fun ha => memReadByte_of_cell ha hv⟩
  · simp [cell_memWrite, ha]

end Sys2Proof.Machine
end

section
/-! SUPPORT. Reset (10_state.md R40, 70_reset_and_hazards.md R290), the falling edge and the phase HALT (40_framing.md
R123, R133), and the two monitor events that write one register or two (45_analog_monitor.md R227, R230). -/

namespace Sys2Proof.Machine

open Sys2Proof

/-! ### Reset (R40, R290) -/

/-- The registers to which R40 gives a value have it. -/
structure ResetValues (s : State) : Prop where
  phase : s.phase = .idle
  op : s.op = .none
  cursor : s.cursor.valid = false
  txdata : s.txdata = 0x00#8
  shift : s.shift = 0#8
  bitcnt : s.bitcnt = 0#3
  selected : s.selected = false
  byteIe : s.byteIe = false
  sendPending : s.sendPending = false
  recvPending : s.recvPending = false
  fault : s.fault = false
  quiet : Quiet s
  threshold : s.sa.threshold = 2 ^ (8 * s.cfg.sampleBytes) - 1
  snapshot : s.sa.snapshot = 0
  seqIdx : s.seqIdx = 0
  samplerRun : s.samplerRun = false

theorem resetWith_resetValues (c : Config) (e : Env) : ResetValues (State.resetWith c e) :=
  ⟨rfl, rfl, rfl, rfl, rfl, rfl, rfl, rfl, rfl, rfl, rfl, ⟨rfl, rfl, rfl, rfl⟩, rfl, rfl, rfl, rfl⟩

theorem resetInService_resetValues (s : State) : ResetValues (resetInService s) :=
  { resetWith_resetValues s.cfg s.env with }

/-- RESET_IN by itself is the whole step, whatever the phase and whatever was pending: it leaves no latch set. -/
theorem step_resetIn {s : State} {later : List Instant} (hin : s.inputs = [.resetIn] :: later) :
    step s = .next (resetInService { s with inputs := later }) :=
  step_of_quiet hin rfl (resetInService_resetValues _).quiet

/-- Settles O33: the step is the `RESET_IN` service. -/
theorem resetInRestoresRegisters : Obligations.ResetInRestoresRegisters := by
  intro s later hin
  have h := resetInService_resetValues { s with inputs := later }
  exact ⟨_, step_resetIn hin, h.phase, h.op, h.cursor, h.txdata, h.shift, h.bitcnt, h.selected, h.byteIe, h.sendPending,
    h.recvPending, h.fault, h.quiet, h.threshold, h.snapshot, h.seqIdx, h.samplerRun, rfl, rfl, rfl, rfl⟩

/-- Settles O34: the reset state is one of the states that reset leaves. -/
theorem resetStateValues : Obligations.ResetStateValues := by
  have h := resetWith_resetValues Config.implemented Env.initial
  exact ⟨h.phase, h.op, h.cursor, h.txdata, h.shift, h.bitcnt, h.selected, h.byteIe, h.sendPending, h.recvPending,
    h.fault, h.quiet, h.threshold, h.snapshot, h.seqIdx, h.samplerRun⟩

/-! ### The falling edge (R123) -/

/-- Settles O29: the step is the `CS_FALL` service, which is one update. -/
theorem fallingEdgeOpensTransfer : Obligations.FallingEdgeOpensTransfer :=
  fun _ _ hp hq hin => (step_fall hp hq hin).trans (congrArg _ (csFallService_eq _))

/-! ### The phase HALT (R133) -/

/-- What exchanges in HALT leave: master and slave bytes in the trace, and as many free values drawn (log 9). -/
def haltExchanged (bytes : List (Byte × Byte)) (s : State) : State :=
  { s with
    trace := s.trace ++ bytes.map (fun p => .exchange p.1 p.2),
    env := { s.env with draws := s.env.draws + bytes.length } }

theorem haltExchanged_nil (s : State) : haltExchanged [] s = s := by
  simp [haltExchanged]

theorem haltExchanged_cons (m : Byte) (bytes : List (Byte × Byte)) (s : State) :
    haltExchanged bytes (haltExchange m s) = haltExchanged ((m, Config.haltSlaveByte s.env.draws) :: bytes) s := by
  simp [haltExchanged, haltExchange, Nat.add_assoc, Nat.add_comm 1]

/-- In HALT an event that is no byte, no RESET_IN and no move of the environment does nothing. -/
theorem present_halt_ignored {e : Event} {s : State} (hp : s.phase = .halt) (hreset : e ≠ .resetIn)
    (henv : e.ofEnvironment = false) (hbyte : ∀ m, e ≠ .byte m) : present e s = .next s := by
  cases e with
  | csFall | csRise => exact if_pos hp
  | byte m => exact absurd rfl (hbyte m)
  | sck b => exact if_pos (.inl hp)
  | conv _ | overrun | cfgThreshold _ | samplerStart => exact congrArg _ (if_pos hp)
  | resetIn => exact absurd rfl hreset
  | env m => exact absurd henv nofun

/-- Of the events of an instant in HALT the bytes leave their exchanges, in order. -/
theorem presentAll_halt {es : Instant} {s : State} (hp : s.phase = .halt)
    (hes : ∀ e ∈ es, e ≠ .resetIn ∧ e.ofEnvironment = false) :
    ∃ bytes : List (Byte × Byte), presentAll es s = .next (haltExchanged bytes s) ∧
      bytes.map (fun p => Event.byte p.1) = es.filter (fun e => decide (∃ m, e = .byte m)) := by
  induction es generalizing s with
  | nil => exact ⟨[], congrArg _ (haltExchanged_nil s).symm, rfl⟩
  | cons e es ih =>
    have hes' : ∀ e ∈ es, e ≠ .resetIn ∧ e.ofEnvironment = false := fun e he => hes e (by simp [he])
    by_cases he : ∃ m, e = .byte m
    · obtain ⟨m, rfl⟩ := he
      have hm : present (.byte m) s = .next (haltExchange m s) := if_pos hp
      obtain ⟨bytes, hrest, hbytes⟩ := ih (s := haltExchange m s) hp hes'
      refine ⟨(m, Config.haltSlaveByte s.env.draws) :: bytes, ?_, ?_⟩
      · rw [presentAll, hm, andThen_next, hrest, haltExchanged_cons]
      · rw [List.map_cons, hbytes, List.filter_cons_of_pos (by simp)]
    · obtain ⟨hreset, henv⟩ := hes e (by simp)
      obtain ⟨bytes, hrest, hbytes⟩ := ih hp hes'
      refine ⟨bytes, ?_, ?_⟩
      · rw [presentAll, present_halt_ignored hp hreset henv (not_exists.1 he), andThen_next, hrest]
      · rw [hbytes, List.filter_cons_of_neg (by simpa using he)]

/-- Settles O32: the instant leaves the exchanges of its bytes, and nothing is serviced in HALT. -/
theorem haltIgnoresEvents : Obligations.HaltIgnoresEvents := by
  intro s now later hp hin hnow
  obtain ⟨bytes, hpresent, hbytes⟩ := presentAll_halt (s := { s with inputs := later }) hp hnow
  refine ⟨haltExchanged bytes { s with inputs := later }, bytes, ?_, rfl, hbytes⟩
  rw [step_cons hin, hpresent]
  exact arbitrate_halt (s := haltExchanged bytes { s with inputs := later }) hp _

/-! ### OVERRUN and CFG_THRESHOLD (R227, R230) -/

/-- Settles O38: the event sets its latch; the service, the one pending, sets FAULT, halts the sampler and clears the
latch. -/
theorem overrunHaltsSampler : Obligations.OverrunHaltsSampler := by
  intro s later hq hp hrun hin
  have ⟨ha, ho, hc, hb⟩ := hq
  have hpresent : present .overrun { s with inputs := later } = .next { s with inputs := later, ovrPend := true } :=
    present_overrun_open (s := { s with inputs := later }) hp
  obtain ⟨hservice, -⟩ :=
    arbitrate_overrun_last (s := { s with inputs := later, ovrPend := true }) 3 hp ha rfl hc hb
  rw [step_cons hin, presentAll_single, hpresent]
  refine hservice.trans (congrArg _ ?_)
  rw [overrunService_eq]
  simp [hrun, ho]

/-- `CFG_THRESHOLD(t)` with a `t` of SAMPLE_W bits. -/
theorem cfgThreshold_of_lt {s : State} {t : Nat} (ht : t < 2 ^ s.cfg.sampleW) :
    cfgThreshold t s = { s with sa := { s.sa with threshold := t } } := by
  rw [cfgThreshold, sampleOf, Nat.mod_eq_of_lt ht]

/-- Settles O41: the event acts at once and sets no latch, so nothing is compared and nothing serviced. -/
theorem thresholdConfigured : Obligations.ThresholdConfigured := by
  intro s v later hq hp hv hin
  have hpresent : present (.cfgThreshold v) { s with inputs := later } =
      .next { s with inputs := later, sa := { s.sa with threshold := v } } :=
    (next_unlessHalted _ (s := { s with inputs := later }) hp).trans
      (congrArg _ (cfgThreshold_of_lt (s := { s with inputs := later }) hv))
  exact step_of_quiet hin hpresent hq

end Sys2Proof.Machine
end

section
/-! SUPPORT. The bit level (10_state.md R27, 40_framing.md R122): what clock periods do to the serialiser, and that
every round of services completes. -/

namespace Sys2Proof.Machine

open Sys2Proof

/-! ### The shift register (R27) -/

/-- The bits of a byte in the order of the wire, most significant first. -/
def msbFirst (v : Byte) : List Bool :=
  [v.getLsbD 7, v.getLsbD 6, v.getLsbD 5, v.getLsbD 4, v.getLsbD 3, v.getLsbD 2, v.getLsbD 1, v.getLsbD 0]

/-- A byte is its bits. -/
theorem msbFirst_injective {v w : Byte} (h : msbFirst v = msbFirst w) : v = w := by
  simp only [msbFirst, List.cons.injEq, and_true] at h
  obtain ⟨h7, h6, h5, h4, h3, h2, h1, h0⟩ := h
  refine BitVec.eq_of_getLsbD_eq fun i hi => ?_
  interval_cases i <;> assumption

/-- MOSI comes in at the low end. -/
theorem getLsbD_shiftIn_zero (v : BitVec 8) (b : Bool) : (shiftIn v b).getLsbD 0 = b := by
  rw [shiftIn, BitVec.getLsbD_append]
  cases b <;> rfl

/-- The other bits go one place up. -/
theorem getLsbD_shiftIn_succ (v : BitVec 8) (b : Bool) {i : Nat} (hi : i < 7) :
    (shiftIn v b).getLsbD (i + 1) = v.getLsbD i := by
  rw [shiftIn, BitVec.getLsbD_append]
  simp [hi]

/-- A clock period moves the bits of the register one place toward the wire. -/
theorem msbFirst_shiftIn (v : BitVec 8) (b : Bool) : msbFirst (shiftIn v b) = (msbFirst v).tail ++ [b] := by
  have h : ∀ i < 7, (shiftIn v b).getLsbD (i + 1) = v.getLsbD i := fun _ => getLsbD_shiftIn_succ v b
  rw [msbFirst, h 6 (by decide), h 5 (by decide), h 4 (by decide), h 3 (by decide), h 2 (by decide), h 1 (by decide),
    h 0 (by decide), getLsbD_shiftIn_zero]
  rfl

/-- The register is a queue of eight bits. -/
theorem msbFirst_foldl_shiftIn (bits : List Bool) (v : BitVec 8) :
    msbFirst (bits.foldl shiftIn v) = (msbFirst v ++ bits).drop bits.length := by
  induction bits generalizing v with
  | nil => exact (List.append_nil _).symm
  | cons b bits ih =>
    rw [List.foldl_cons, ih, msbFirst_shiftIn]
    simp [msbFirst]

/-- Eight clock periods fill the register, whatever it held. -/
theorem foldl_shiftIn_msbFirst (v m : BitVec 8) : (msbFirst m).foldl shiftIn v = m :=
  msbFirst_injective (msbFirst_foldl_shiftIn _ v)

/-- After seven clock periods the last bit of a byte stands first. -/
theorem getLsbD_seven_foldl_shiftIn {bits : List Bool} (h : bits.length = 7) (v : BitVec 8) :
    (bits.foldl shiftIn v).getLsbD 7 = v.getLsbD 0 := by
  have hqueue := msbFirst_foldl_shiftIn bits v
  rw [h] at hqueue
  exact (List.cons.inj hqueue).1

/-! ### One clock period (R27) -/

/-- From `s` to `t` the clock periods of `bits`, none of them the eighth of its byte time: they moved the serialiser and
nothing else but the inputs. The bits of MISO are those the register of `s` held. -/
structure Clocked (bits : List Bool) (s t : State) : Prop where
  same : t = { s with shift := t.shift, bitcnt := t.bitcnt, misoBits := t.misoBits, inputs := t.inputs }
  bitcnt : t.bitcnt.toNat = s.bitcnt.toNat + bits.length
  serial : serialByte t = bits.foldl shiftIn (serialByte s)
  miso : t.misoBits = ((msbFirst (serialByte s)).take bits.length).foldl shiftIn s.misoBits

theorem Clocked.refl (s : State) : Clocked [] s s := ⟨rfl, rfl, rfl, rfl⟩

/-- What the clock is heard in: an open transfer with nothing pending. -/
structure Listening (s : State) : Prop where
  openPhase : s.phase = .cmd ∨ s.phase = .addrLo ∨ s.phase = .stream
  selected : s.selected = true
  quiet : Quiet s

theorem Clocked.listening {bits : List Bool} {s t : State} (h : Clocked bits s t) (hs : Listening s) : Listening t := by
  rw [h.same]
  exact ⟨hs.openPhase, hs.selected, hs.quiet⟩

/-- A clock period is heard while selected, outside IDLE and HALT (R28, R133). -/
theorem Listening.heard {s : State} (h : Listening s) : ¬ (s.phase = .halt ∨ s.selected = false ∨ s.phase = .idle) := by
  rcases h.openPhase with hp | hp | hp <;> simp [hp, h.selected]

/-- A clock period that is not the eighth of its byte time is a step of its own. -/
theorem step_sck {s : State} {b : Bool} {later : List Instant} (h : Listening s) (hcount : s.bitcnt.toNat < 7)
    (hin : s.inputs = [.sck b] :: later) : ∃ t, step s = .next t ∧ t.inputs = later ∧ Clocked [b] s t := by
  have ⟨_, _, _, hbyte⟩ := h.quiet
  have hnot : s.bitcnt ≠ 7#3 := fun heq => by simp [heq] at hcount
  have hpresent : present (.sck b) { s with inputs := later } = .next { s with
      shift := shiftIn (serialByte s) b, bitcnt := s.bitcnt + 1#3,
      misoBits := shiftIn s.misoBits ((serialByte s).getLsbD 7), inputs := later } := by
    rw [present, presentBit, if_neg h.heard, if_neg (by simp [hbyte]), if_pos hnot]
    rfl
  have hcnt : (s.bitcnt + 1#3).toNat = s.bitcnt.toNat + 1 := by
    rw [BitVec.toNat_add]
    exact Nat.mod_eq_of_lt (by simp; omega)
  have hnonzero : s.bitcnt + 1#3 ≠ 0#3 := fun heq => by simp [heq] at hcnt
  exact ⟨_, step_of_quiet hin hpresent h.quiet, rfl, rfl, hcnt, if_neg hnonzero, rfl⟩

/-- A first clock period, then the others. -/
theorem Clocked.cons {b : Bool} {bits : List Bool} {s t u : State} (hst : Clocked [b] s t) (htu : Clocked bits t u)
    (hlen : bits.length < 8) : Clocked (b :: bits) s u where
  same := by
    have hsame := htu.same
    rw [hst.same] at hsame
    exact hsame
  bitcnt := by
    rw [htu.bitcnt, hst.bitcnt, List.length_singleton, List.length_cons]
    omega
  serial := by
    rw [htu.serial, hst.serial]
    rfl
  miso := by
    have htake : (msbFirst (shiftIn (serialByte s) b)).take bits.length =
        (msbFirst (serialByte s)).tail.take bits.length := by
      rw [msbFirst_shiftIn]
      exact List.take_append_of_le_length (Nat.le_of_lt_succ hlen)
    rw [htu.miso, hst.miso, hst.serial, List.foldl_cons, List.foldl_nil, htake]
    rfl

/-- Clock periods that leave the byte time open, each a step of its own. -/
theorem runSteps_clocked {bits : List Bool} {s : State} {rest : List Instant} (h : Listening s)
    (hcount : s.bitcnt.toNat + bits.length < 8) (hin : s.inputs = bits.map (fun b => [.sck b]) ++ rest) (n : Nat) :
    ∃ t, runSteps (bits.length + n) s = runSteps n t ∧ t.inputs = rest ∧ Clocked bits s t := by
  induction bits generalizing s with
  | nil => exact ⟨s, by simp, hin, .refl s⟩
  | cons b bits ih =>
    rw [List.length_cons] at hcount
    obtain ⟨t, hstep, hinputs, hclock⟩ := step_sck h (by omega) hin
    have hcount' : t.bitcnt.toNat + bits.length < 8 := by
      rw [hclock.bitcnt, List.length_singleton]
      omega
    obtain ⟨u, hrun, hrest, hclocks⟩ := ih (hclock.listening h) hcount' hinputs
    refine ⟨u, ?_, hrest, hclock.cons hclocks (by omega)⟩
    rw [List.length_cons, Nat.add_right_comm, runSteps_succ _ hstep, hrun]

/-! ### The situations in which a byte is awaited -/

theorem listening_of_situation {s : State} (h : AtCommand s ∨ AtLowByte s ∨ AtData s) : Listening s :=
  ⟨phase_of_situation h, (awaitsByte_of_situation h).selected, quiet_of_situation h⟩

/-! ### Eight clock periods (R27) -/

/-- The service the arbiter picks completes. -/
theorem service_completes (src : Source) (s : State) : ∃ t, service src s = .next t := by
  cases src with
  | breach | overrun | edge => exact ⟨_, rfl⟩
  | byte =>
    cases hp : s.phase with
    | cmd =>
      have hcommand : service .byte s = commandService { s with bytePend := false } := by
        simp [service, byteService, hp]
      rw [hcommand]
      obtain ⟨i, l, hi⟩ | hwait := commandService_cases { s with bytePend := false }
      · obtain ⟨t, ht, -⟩ := exec_spec i { s with bytePend := false, inputs := l }
        exact ⟨t, hi.trans ht⟩
      · exact ⟨_, hwait⟩
    | addrLo | stream | idle | halt => simp [service, byteService, hp]

/-- No service refuses (60_exceptions.md R261): the rounds of the arbiter complete. -/
theorem arbitrate_completes (n : Nat) (s : State) : ∃ t, arbitrate n s = .next t := by
  induction n generalizing s with
  | zero => exact ⟨s, rfl⟩
  | succ n ih =>
    cases hpick : arbiter s with
    | none => exact ⟨s, by rw [arbitrate, hpick]⟩
    | some src =>
      obtain ⟨t, ht⟩ := service_completes src s
      rw [arbitrate_of_pick hpick ht]
      exact ih t

/-- The eighth clock period of a byte time is the exchange: the byte that came in, and the one that stood in TXDATA. -/
theorem present_eighth {s t : State} {m : Byte} (hs : Listening s) (hbit : s.bitcnt = 0#3)
    (h : Clocked ((msbFirst m).take 7) s t) (later : List Instant) :
    present (.sck (m.getLsbD 0)) { t with inputs := later } =
      .next (State.exchange { s with inputs := later } m s.txdata) := by
  have ht : Listening t := h.listening hs
  have ⟨_, _, _, hbyte⟩ := ht.quiet
  have hseven : t.bitcnt = 7#3 := BitVec.eq_of_toNat_eq (by rw [h.bitcnt, hbit]; rfl)
  have htx : serialByte s = s.txdata := if_pos hbit
  have hshift : t.shift = ((msbFirst m).take 7).foldl shiftIn s.txdata := by
    rw [← htx, ← h.serial, serialByte, hseven]
    rfl
  have hin : shiftIn t.shift (m.getLsbD 0) = m := by
    rw [hshift]
    exact foldl_shiftIn_msbFirst s.txdata m
  have hout : shiftIn t.misoBits (t.shift.getLsbD 7) = s.txdata := by
    rw [hshift, getLsbD_seven_foldl_shiftIn rfl, h.miso, htx]
    exact foldl_shiftIn_msbFirst s.misoBits s.txdata
  have hexchange : presentBit (m.getLsbD 0) { t with inputs := later } =
      .next (State.exchange { t with inputs := later } (shiftIn t.shift (m.getLsbD 0))
        (shiftIn t.misoBits (t.shift.getLsbD 7))) := by
    rw [presentBit, if_neg ht.heard, if_neg (by simp [hbyte]), if_neg (not_not.2 hseven)]
  rw [present, hexchange, hin, hout, h.same]
  rfl

/-- Settles O59: the eighth clock period and the BYTE event leave the same exchange, so the same service follows. -/
theorem eightClockPeriodsAreOneByte : Obligations.EightClockPeriodsAreOneByte := by
  intro s m later hsit
  have ⟨hopen, hsel, hq⟩ := listening_of_situation hsit
  have hawaits := awaitsByte_of_situation hsit
  obtain ⟨u, hu⟩ := arbitrate_completes serviceRounds (State.exchange { s with inputs := later } m s.txdata)
  refine ⟨u, ?periods, ?byte⟩
  case periods =>
    have hs : Listening { s with inputs := clockPeriods m ++ later } := ⟨hopen, hsel, hq⟩
    obtain ⟨t, hrun, hinputs, hclock⟩ := runSteps_clocked (bits := (msbFirst m).take 7)
      (rest := [.sck (m.getLsbD 0)] :: later) hs (by simp [hawaits.bitcnt, msbFirst]) rfl 1
    have hlast : step t = .next u := by
      rw [step_cons hinputs, presentAll_single, present_eighth hs hawaits.bitcnt hclock]
      exact hu
    exact hrun.trans (runSteps_succ 0 hlast)
  case byte =>
    have hpresent : present (.byte m) { s with inputs := later } =
        .next (State.exchange { s with inputs := later } m s.txdata) :=
      present_byte_open (s := { s with inputs := later }) m hawaits.notHalt hawaits.notIdle hawaits.selected
        hawaits.bitcnt hawaits.bytePend
    rw [step_cons rfl, presentAll_single]
    exact (congrArg (andThen · _) hpresent).trans hu

/-! ### A fragment of a byte (R122) -/

/-- Settles O60: the clock periods move the serialiser alone, and the `CS_RISE` service clears it. -/
theorem fragmentDiscarded : Obligations.FragmentDiscarded := by
  intro s bits later hsit hlen hin
  have hs := listening_of_situation hsit
  have hcount : s.bitcnt.toNat + bits.length < 8 := by simpa [(awaitsByte_of_situation hsit).bitcnt] using hlen
  obtain ⟨t, hrun, hinputs, hclock⟩ := runSteps_clocked hs hcount hin 1
  have ht := hclock.listening hs
  refine ⟨_, hrun.trans (runSteps_succ 0 (step_rise ht.openPhase ht.quiet hinputs)), ?_⟩
  rw [csRiseService_eq, hclock.same]
  exact ⟨rfl, rfl, rfl, rfl, rfl, rfl⟩

end Sys2Proof.Machine
end
